-- ==== Sys2Proof/Word.lean ====
section
/-!
DEFINITION. The value types of the MD5 compressor: byte, word, dword, control word, byte string (00_scope.md R10, R12) and the
ordered group of four words that the accumulators and the working values are (10_state.md R21, R31).
-/
namespace Sys2Proof

/-- A byte, an unsigned value 0 to 255 (R10). -/
abbrev Byte := BitVec 8

/-- A word, 32 bits, unsigned (R10). -/
abbrev Word := BitVec 32

/-- A dword, 64 bits, unsigned (R10). -/
abbrev Dword := BitVec 64

/-- A step control word, 43 bits (30_encoding.md R92). -/
abbrev ControlWord := BitVec 43

/-- A byte string, a finite sequence of bytes (R12). -/
abbrev ByteString := List Byte

/-- Four words in the order (A, B, C, D) of the accumulators (R21), or (a, b, c, d) of the working values (R31). -/
structure Quad where
  a : Word
  b : Word
  c : Word
  d : Word
deriving DecidableEq, Repr

end Sys2Proof
end

