-- ==== Sys2Proof/Config.lean ====
section
/-!
DEFINITION. The fixed sizes of the hardware (00_scope.md R8). The spec leaves no parameter open to the model (R9;
92_eei_decisions.md: "the model takes no free parameter"), so this file holds no free value.
-/
namespace Sys2Proof.Config

/-- Digest size in bytes (R8). -/
abbrev digestBytes : Nat := 16

/-- Block size in bytes (R8). -/
abbrev blockBytes : Nat := 64

/-- Signature string length in characters (R8). -/
abbrev signatureChars : Nat := 32

end Sys2Proof.Config
end

