-- ==== Sys2Proof/Syntax.lean ====
section
/-!
DEFINITION. The instructions: one constructor per row of spec/opcode_table.json (00_scope.md R4), the six host commands with
their payload operand (30_encoding.md R83, R91) and the 64 step micro-operations, which have no operand (41_block_compression.md
R143). Also the two encoded objects (R80): command packets and step control words.
-/
namespace Sys2Proof

/-- An instruction of the hardware (R4). -/
inductive Instr where
  /-- INIT (40_digest_engine.md R110). -/
  | init
  /-- PROCESS with its payload, the chunk (R111). -/
  | process (payload : ByteString)
  /-- FINISH (R115, R121). -/
  | finish
  /-- ONESHOT with its payload, the whole message (R122). -/
  | oneshot (payload : ByteString)
  /-- ENCODE with its payload, a Digest (42_signature_codec.md R180). -/
  | encode (payload : ByteString)
  /-- DECODE with its payload, one character per byte (R183). -/
  | decode (payload : ByteString)
  /-- Steps 0 to 15: stage 1 (41_block_compression.md R145). -/
  | step0
  | step1
  | step2
  | step3
  | step4
  | step5
  | step6
  | step7
  | step8
  | step9
  | step10
  | step11
  | step12
  | step13
  | step14
  | step15
  /-- Steps 16 to 31: stage 2 (41_block_compression.md R146). -/
  | step16
  | step17
  | step18
  | step19
  | step20
  | step21
  | step22
  | step23
  | step24
  | step25
  | step26
  | step27
  | step28
  | step29
  | step30
  | step31
  /-- Steps 32 to 47: stage 3 (41_block_compression.md R147). -/
  | step32
  | step33
  | step34
  | step35
  | step36
  | step37
  | step38
  | step39
  | step40
  | step41
  | step42
  | step43
  | step44
  | step45
  | step46
  | step47
  /-- Steps 48 to 63: stage 4 (41_block_compression.md R148). -/
  | step48
  | step49
  | step50
  | step51
  | step52
  | step53
  | step54
  | step55
  | step56
  | step57
  | step58
  | step59
  | step60
  | step61
  | step62
  | step63
deriving DecidableEq, Repr

/-- A command packet: byte 0 is the command byte, bytes 1 to the end are the payload (R81). A packet of length 0 cannot be
formed (R81) and has no representation here. -/
structure Packet where
  cmd : Byte
  payload : ByteString
deriving DecidableEq, Repr

/-- The packet as the byte string the host sends (R81). -/
def Packet.bytes (p : Packet) : ByteString := p.cmd :: p.payload

/-- The two kinds of object that have a bit-level form (R80). -/
inductive Encoded where
  /-- A command packet of the host interface. -/
  | packet (p : Packet)
  /-- A step control word, an entry of `ROM`. -/
  | controlWord (cw : ControlWord)
deriving DecidableEq, Repr

end Sys2Proof
end

