-- ==== Sys2Proof/WellFormed.lean ====
section
/-!
DEFINITION. Which instructions are well-formed. The one operand rule of the spec that the syntax does not already enforce is
ENCODE's payload length (30_encoding.md R84): its operand is a Digest, exactly 16 bytes. INIT and FINISH have no operand in the
syntax; PROCESS, ONESHOT and DECODE accept every payload length.
-/
namespace Sys2Proof

/-- The payload length rule of R84. -/
def Instr.wellFormed : Instr → Bool
  | .encode p => p.length == Config.digestBytes
  | _ => true

/-- `i` is well-formed (R84). -/
abbrev Instr.WellFormed (i : Instr) : Prop := i.wellFormed = true

end Sys2Proof
end

