-- ==== Sys2Proof/Decode.lean ====
section
/-!
DEFINITION. The decoder, total on every packet and every 43-bit word, rejecting by name (30_encoding.md R82 to R94); the step
control table `ROM` (R34, R92; values 41_block_compression.md R145 to R148); and the encoder, written from the same tables.
-/
namespace Sys2Proof

/-- Why the decoder rejects an encoded object. -/
inductive Reject where
  /-- Command byte with `c[7:3]` not zero (R88). -/
  | reservedBits
  /-- Command byte with `op` 6 or 7 (R88). -/
  | reservedOpcode
  /-- A legal command byte whose payload length violates R84 (R89). -/
  | payloadLength
  /-- A control word that is none of the 64 words of `ROM` (R94). -/
  | unlistedControlWord
deriving DecidableEq, Repr

/-- Stage 1 of the step control table, packed as R92 says: steps 0 to 15 (R145). -/
def stepTable1 : List (ControlWord × Instr) := [
  (0x007d76aa478#43, .step0),
  (0x02ce8c7b756#43, .step1),
  (0x051242070db#43, .step2),
  (0x076c1bdceee#43, .step3),
  (0x087f57c0faf#43, .step4),
  (0x0ac4787c62a#43, .step5),
  (0x0d1a8304613#43, .step6),
  (0x0f6fd469501#43, .step7),
  (0x107698098d8#43, .step8),
  (0x12c8b44f7af#43, .step9),
  (0x151ffff5bb1#43, .step10),
  (0x176895cd7be#43, .step11),
  (0x1876b901122#43, .step12),
  (0x1acfd987193#43, .step13),
  (0x1d1a679438e#43, .step14),
  (0x1f649b40821#43, .step15)]

/-- Stage 2 of the step control table, packed as R92 says: steps 16 to 31 (R146). -/
def stepTable2 : List (ControlWord × Instr) := [
  (0x225f61e2562#43, .step16),
  (0x2c9c040b340#43, .step17),
  (0x36e265e5a51#43, .step18),
  (0x214e9b6c7aa#43, .step19),
  (0x2a5d62f105d#43, .step20),
  (0x34902441453#43, .step21),
  (0x3eed8a1e681#43, .step22),
  (0x294e7d3fbc8#43, .step23),
  (0x32521e1cde6#43, .step24),
  (0x3c9c33707d6#43, .step25),
  (0x26ef4d50d87#43, .step26),
  (0x314455a14ed#43, .step27),
  (0x3a5a9e3e905#43, .step28),
  (0x249fcefa3f8#43, .step29),
  (0x2ee676f02d9#43, .step30),
  (0x3948d2a4c8a#43, .step31)]

/-- Stage 3 of the step control table, packed as R92 says: steps 32 to 47 (R147). -/
def stepTable3 : List (ControlWord × Instr) := [
  (0x4a4fffa3942#43, .step32),
  (0x50b8771f681#43, .step33),
  (0x5706d9d6122#43, .step34),
  (0x5d7fde5380c#43, .step35),
  (0x424a4beea44#43, .step36),
  (0x48b4bdecfa9#43, .step37),
  (0x4f0f6bb4b60#43, .step38),
  (0x557bebfbc70#43, .step39),
  (0x5a4289b7ec6#43, .step40),
  (0x40beaa127fa#43, .step41),
  (0x470d4ef3085#43, .step42),
  (0x4d704881d05#43, .step43),
  (0x524d9d4d039#43, .step44),
  (0x58be6db99e5#43, .step45),
  (0x5f01fa27cf8#43, .step46),
  (0x457c4ac5665#43, .step47)]

/-- Stage 4 of the step control table, packed as R92 says: steps 48 to 63 (R148). -/
def stepTable4 : List (ControlWord × Instr) := [
  (0x606f4292244#43, .step48),
  (0x6ea432aff97#43, .step49),
  (0x7cfab9423a7#43, .step50),
  (0x6b5fc93a039#43, .step51),
  (0x786655b59c3#43, .step52),
  (0x66a8f0ccc92#43, .step53),
  (0x74fffeff47d#43, .step54),
  (0x63585845dd1#43, .step55),
  (0x7066fa87e4f#43, .step56),
  (0x7eafe2ce6e0#43, .step57),
  (0x6cfa3014314#43, .step58),
  (0x7b54e0811a1#43, .step59),
  (0x686f7537e82#43, .step60),
  (0x76abd3af235#43, .step61),
  (0x64f2ad7d2bb#43, .step62),
  (0x735eb86d391#43, .step63)]

/-- The step control table: row `i` is `ROM[i]` and the step it controls (R34). -/
def stepTable : List (ControlWord × Instr) := stepTable1 ++ stepTable2 ++ stepTable3 ++ stepTable4

/-- `ROM[i]` (R34, R92), a constant of the hardware (R67). -/
def romWord (i : Fin 64) : ControlWord := (stepTable.getD i.val (0, .step0)).1

/-- The step micro-operation whose index is `i` (R92: one control word per step). -/
def stepInstr (i : Fin 64) : Instr := (stepTable.getD i.val (0, .step0)).2

/-- Field `fsel`, bits 42 to 41 (R92, R93). -/
def cwFsel (cw : ControlWord) : BitVec 2 := cw.extractLsb' 41 2

/-- Field `g`, bits 40 to 37: the index of the message word the step adds (R92). -/
def cwG (cw : ControlWord) : BitVec 4 := cw.extractLsb' 37 4

/-- Field `s`, bits 36 to 32: the left-rotate amount (R92). -/
def cwS (cw : ControlWord) : BitVec 5 := cw.extractLsb' 32 5

/-- Field `K`, bits 31 to 0: the additive constant (R92). -/
def cwK (cw : ControlWord) : Word := cw.extractLsb' 0 32

/-- Field `op`, bits 2 to 0 of the command byte (R82). -/
def cmdOp (c : Byte) : BitVec 3 := c.extractLsb' 0 3

/-- Field `rsvd`, bits 7 to 3 of the command byte (R82). -/
def cmdRsvd (c : Byte) : BitVec 5 := c.extractLsb' 3 5

/-- Accept `i` if the payload length rule holds, otherwise reject the packet (R84, R89). -/
def checkPayload (lengthOk : Bool) (i : Instr) : Except Reject Instr :=
  if lengthOk then .ok i else .error .payloadLength

/-- Decode a command packet: reserved bits and opcode first (R88), then the payload length (R89), in the order of
60_exceptions.md R207. -/
def decodePacket (p : Packet) : Except Reject Instr :=
  if cmdRsvd p.cmd ≠ 0 then .error .reservedBits
  else
    match (cmdOp p.cmd).toNat with
    | 0 => checkPayload (p.payload.length == 0) .init
    | 1 => .ok (.process p.payload)
    | 2 => checkPayload (p.payload.length == 0) .finish
    | 3 => .ok (.oneshot p.payload)
    | 4 => checkPayload (p.payload.length == Config.digestBytes) (.encode p.payload)
    | 5 => .ok (.decode p.payload)
    | _ => .error .reservedOpcode

/-- Decode a step control word: the step whose `ROM` entry it is (R92, R94). -/
def decodeControlWord (cw : ControlWord) : Except Reject Instr :=
  match stepTable.find? (fun row => row.1 == cw) with
  | some row => .ok row.2
  | none => .error .unlistedControlWord

/-- Decode an encoded object of either kind (R80). -/
def decode : Encoded → Except Reject Instr
  | .packet p => decodePacket p
  | .controlWord cw => decodeControlWord cw

/-- Encode an instruction: command byte and payload of R83, or the control word of R145 to R148. -/
def encode : Instr → Encoded
  | .init => .packet ⟨0x00#8, []⟩
  | .process p => .packet ⟨0x01#8, p⟩
  | .finish => .packet ⟨0x02#8, []⟩
  | .oneshot p => .packet ⟨0x03#8, p⟩
  | .encode p => .packet ⟨0x04#8, p⟩
  | .decode p => .packet ⟨0x05#8, p⟩
  | .step0 => .controlWord (romWord 0)
  | .step1 => .controlWord (romWord 1)
  | .step2 => .controlWord (romWord 2)
  | .step3 => .controlWord (romWord 3)
  | .step4 => .controlWord (romWord 4)
  | .step5 => .controlWord (romWord 5)
  | .step6 => .controlWord (romWord 6)
  | .step7 => .controlWord (romWord 7)
  | .step8 => .controlWord (romWord 8)
  | .step9 => .controlWord (romWord 9)
  | .step10 => .controlWord (romWord 10)
  | .step11 => .controlWord (romWord 11)
  | .step12 => .controlWord (romWord 12)
  | .step13 => .controlWord (romWord 13)
  | .step14 => .controlWord (romWord 14)
  | .step15 => .controlWord (romWord 15)
  | .step16 => .controlWord (romWord 16)
  | .step17 => .controlWord (romWord 17)
  | .step18 => .controlWord (romWord 18)
  | .step19 => .controlWord (romWord 19)
  | .step20 => .controlWord (romWord 20)
  | .step21 => .controlWord (romWord 21)
  | .step22 => .controlWord (romWord 22)
  | .step23 => .controlWord (romWord 23)
  | .step24 => .controlWord (romWord 24)
  | .step25 => .controlWord (romWord 25)
  | .step26 => .controlWord (romWord 26)
  | .step27 => .controlWord (romWord 27)
  | .step28 => .controlWord (romWord 28)
  | .step29 => .controlWord (romWord 29)
  | .step30 => .controlWord (romWord 30)
  | .step31 => .controlWord (romWord 31)
  | .step32 => .controlWord (romWord 32)
  | .step33 => .controlWord (romWord 33)
  | .step34 => .controlWord (romWord 34)
  | .step35 => .controlWord (romWord 35)
  | .step36 => .controlWord (romWord 36)
  | .step37 => .controlWord (romWord 37)
  | .step38 => .controlWord (romWord 38)
  | .step39 => .controlWord (romWord 39)
  | .step40 => .controlWord (romWord 40)
  | .step41 => .controlWord (romWord 41)
  | .step42 => .controlWord (romWord 42)
  | .step43 => .controlWord (romWord 43)
  | .step44 => .controlWord (romWord 44)
  | .step45 => .controlWord (romWord 45)
  | .step46 => .controlWord (romWord 46)
  | .step47 => .controlWord (romWord 47)
  | .step48 => .controlWord (romWord 48)
  | .step49 => .controlWord (romWord 49)
  | .step50 => .controlWord (romWord 50)
  | .step51 => .controlWord (romWord 51)
  | .step52 => .controlWord (romWord 52)
  | .step53 => .controlWord (romWord 53)
  | .step54 => .controlWord (romWord 54)
  | .step55 => .controlWord (romWord 55)
  | .step56 => .controlWord (romWord 56)
  | .step57 => .controlWord (romWord 57)
  | .step58 => .controlWord (romWord 58)
  | .step59 => .controlWord (romWord 59)
  | .step60 => .controlWord (romWord 60)
  | .step61 => .controlWord (romWord 61)
  | .step62 => .controlWord (romWord 62)
  | .step63 => .controlWord (romWord 63)

/-- The packet whose first bytes are the `n + 1` bytes of `w`, least significant byte first, with zero operand bytes added
where the opcode's payload rule (R84) asks for more than the bits give: ENCODE's 16-byte operand. -/
def tablePacket (n w : Nat) : Packet :=
  let cmd : Byte := BitVec.ofNat 8 w
  let given : ByteString := (List.range n).map (fun k => BitVec.ofNat 8 (w / 2 ^ (8 * (k + 1))))
  let wanted := if cmd = 0x04#8 then Config.digestBytes else 0
  ⟨cmd, given ++ List.replicate (wanted - given.length) 0⟩

/-- The encoded object that `nbits` bits `w` of an opcode-table row stand for: a control word where the row has 43 bits (48 in
whole bytes), a command packet otherwise. A control word has no byte order (20_memory.md R55), so its bits are numbered as R92
numbers them. -/
def tableObject (nbits w : Nat) : Option Encoded :=
  if nbits = 43 ∨ nbits = 48 then
    if w < 2 ^ 43 then some (.controlWord (BitVec.ofNat 43 w)) else none
  else if nbits % 8 = 0 ∧ 8 ≤ nbits ∧ w < 2 ^ nbits then
    some (.packet (tablePacket (nbits / 8 - 1) w))
  else none

/-- The instruction the decoder reads from the bits `w` of an opcode-table row. -/
def decodeTableWord (nbits w : Nat) : Option Instr :=
  match tableObject nbits w with
  | none => none
  | some e =>
    match decode e with
    | .ok i => some i
    | .error _ => none

end Sys2Proof
end

