-- ==== Sys2Proof/Machine/State.lean ====
section
/-!
DEFINITION. The state of one engine (10_state.md R20 to R39), what crosses its interface (30_encoding.md R81, R85), the reasons a
step can stop, and the state after reset (R37).
-/
namespace Sys2Proof.Machine

/-- The three errors a command can end in (60_exceptions.md R200). Each is reported in the status byte and stops nothing. -/
inductive Err where
  /-- PROCESS or FINISH not allowed in the engine's phase (R201). -/
  | invalidState
  /-- DECODE's payload is not exactly 32 valid hex characters (R202). -/
  | malformedInput
  /-- The packet is not a well-formed command (R203). -/
  | illegalCommand
deriving DecidableEq, Repr

/-- A response packet (R85): on OK the data, on an error no data. -/
inductive Response where
  | ok (data : ByteString)
  | error (e : Err)
deriving DecidableEq, Repr

/-- What the host does to the engine's input side (R81). -/
inductive Input where
  /-- A complete command packet. -/
  | packet (p : Packet)
  /-- The reset event on the port `rst` (70_reset_and_hazards.md R230). `cut` is what it abandons: the bytes of the packet that
  was being received or executed when it arrived, none if the engine was idle (R231). -/
  | reset (cut : ByteString)
deriving DecidableEq, Repr

/-- One engine. The first five fields are the DigestState of R20, with `pending` the byte string of length `pending_len` that R22
allows; the next four are the hidden state of a block compression (R31 to R33); the last two are the two streams of the host
interface (20_memory.md R50, 30_encoding.md R81). -/
structure State where
  /-- `acc[0..3]` = A, B, C, D (R21). -/
  acc : Quad
  /-- `pending[0 : pending_len]`, oldest byte first (R22, R23). -/
  pending : ByteString
  /-- `total_length`, counted in bytes (R24). -/
  totalLength : Dword
  /-- `finalized` (R25). -/
  finalized : Bool
  /-- `valid` (R26). -/
  valid : Bool
  /-- `w[0..3]` = (a, b, c, d), the working values (R31). -/
  w : Quad
  /-- `step`, the step index, 6 bits (R32). -/
  stepIndex : Fin 64
  /-- `blk[0..63]`, the block in flight (R33). -/
  blk : ByteString
  /-- A block compression is in flight, so that the hidden state is alive (R31, R32). -/
  running : Bool
  /-- What the host has sent and the engine has not yet taken, oldest first (R81, R62). -/
  inputs : List Input
  /-- The responses the engine has given, oldest first (R85, R62). -/
  responses : List Response
deriving DecidableEq, Repr

/-- `pending_len` (R23): the number of pending bytes. -/
def State.pendingLen (s : State) : Nat := s.pending.length

/-- The reasons the machine can stop with a fault: none. "There is no other error, fault or exception" than the three errors of
a command (R200), and each of those is a next state (R208). -/
inductive Fault where
deriving DecidableEq, Repr

/-- The reasons a step can be refused. -/
inductive Refusal where
  /-- Raised by an arm of `exec` for an instruction without a meaning; no arm does. Safe: the model stops. -/
  | notModelled (mnemonic : String)
  /-- Raised by `step` when the control word it fetched is none of the 64 listed ones (30_encoding.md R94: such a word is never
  executed). `ROM` holds only the listed words, so no state reaches it. Safe: the model stops. -/
  | unlistedControlWord
deriving DecidableEq, Repr

/-- The engine after reset (R37): `valid` and `finalized` 0, no block compression in flight, nothing sent and nothing answered.
The spec leaves the other fields unspecified or dead; the zeros are the model's DESIGN CHOICE (unsafe; notes/assumptions/1.md
and 2.md). -/
def State.reset : State where
  acc := ⟨0, 0, 0, 0⟩
  pending := []
  totalLength := 0
  finalized := false
  valid := false
  w := ⟨0, 0, 0, 0⟩
  stepIndex := 0
  blk := List.replicate 64 0
  running := false
  inputs := []
  responses := []

end Sys2Proof.Machine
end

