-- ==== Sys2Proof/Machine/Operands.lean ====
section
/-!
DEFINITION. How operands and results are assembled from bytes: slices (00_scope.md R12), the little-endian conversions (R13;
20_memory.md R52 to R54), the characters of a signature string (30_encoding.md R97), the status byte (R86) and the response
packet (R85).
-/
namespace Sys2Proof.Machine

/-! ### Byte strings (R12) -/

/-- `s[i:j]`: the elements `i` to `j-1` of `s`. -/
def slice (s : ByteString) (i j : Nat) : ByteString := (s.drop i).take (j - i)

/-- `zeros(n)`: `n` bytes of `0x00`. -/
def zeros (n : Nat) : ByteString := List.replicate n 0x00#8

/-! ### Little-endian conversion (R13) -/

/-- `LE32`: the first byte is the least significant. -/
def le32 (b0 b1 b2 b3 : Byte) : Word := b3 ++ b2 ++ b1 ++ b0

/-- `bytesLE32(x)`: the four bytes of a word, least significant first. -/
def bytesLE32 (x : Word) : ByteString :=
  [x.extractLsb' 0 8, x.extractLsb' 8 8, x.extractLsb' 16 8, x.extractLsb' 24 8]

/-- `bytesLE64(x)`: the eight bytes of a dword, least significant first. -/
def bytesLE64 (x : Dword) : ByteString :=
  [x.extractLsb' 0 8, x.extractLsb' 8 8, x.extractLsb' 16 8, x.extractLsb' 24 8,
   x.extractLsb' 32 8, x.extractLsb' 40 8, x.extractLsb' 48 8, x.extractLsb' 56 8]

/-- The word expansion `M[0..15]` of a block: consecutive groups of four bytes as little-endian words
(41_block_compression.md R141; 20_memory.md R52). -/
def messageWords : ByteString → List Word
  | b0 :: b1 :: b2 :: b3 :: rest => le32 b0 b1 b2 b3 :: messageWords rest
  | _ => []

/-- `Serialize(acc)`: the accumulators A, B, C, D, each little-endian (40_digest_engine.md R119; 20_memory.md R54). -/
def serialize (acc : Quad) : ByteString :=
  bytesLE32 acc.a ++ bytesLE32 acc.b ++ bytesLE32 acc.c ++ bytesLE32 acc.d

/-! ### Characters (R97) -/

/-- `hexchar(n)`, for `n` in 0 to 15: the ASCII code of the lowercase hex digit. -/
def hexchar (n : BitVec 4) : Byte :=
  if n.toNat ≤ 9 then 0x30#8 + n.setWidth 8 else 0x61#8 + (n.setWidth 8 - 10#8)

/-- `hexval(c)`: the value of an upper- or lowercase hex digit, `none` where the code is invalid. -/
def hexval (c : Byte) : Option (BitVec 4) :=
  if 0x30 ≤ c.toNat ∧ c.toNat ≤ 0x39 then some (BitVec.ofNat 4 (c.toNat - 0x30))
  else if 0x61 ≤ c.toNat ∧ c.toNat ≤ 0x66 then some (BitVec.ofNat 4 (c.toNat - 0x61 + 10))
  else if 0x41 ≤ c.toNat ∧ c.toNat ≤ 0x46 then some (BitVec.ofNat 4 (c.toNat - 0x41 + 10))
  else none

/-- `lowercase` on one character: `'A'..'F'` to `'a'..'f'`, every other code unchanged (42_signature_codec.md R186). -/
def lowerChar (c : Byte) : Byte :=
  if 0x41 ≤ c.toNat ∧ c.toNat ≤ 0x46 then c + 0x20#8 else c

/-- `Encode(d)`: two characters per byte in digest byte order, high nibble first (R180, R181). -/
def encodeHex : ByteString → ByteString
  | [] => []
  | x :: rest => hexchar (x.extractLsb' 4 4) :: hexchar (x.extractLsb' 0 4) :: encodeHex rest

/-- The pairwise parse of R183: high nibble first; `none` where a character is invalid or one is left over. -/
def decodePairs : ByteString → Option ByteString
  | [] => some []
  | [_] => none
  | hi :: lo :: rest =>
    match hexval hi, hexval lo, decodePairs rest with
    | some h, some l, some out => some ((h ++ l) :: out)
    | _, _, _ => none

/-- `Decode(s)` (R183): `none` where `s` is malformed, the length being tested before the characters (60_exceptions.md R207). -/
def decodeHex (s : ByteString) : Option ByteString :=
  if s.length = Config.signatureChars then decodePairs s else none

/-! ### Responses (R85, R86) -/

/-- The status byte of an error (R86). -/
def errCode : Err → Byte
  | .invalidState => 0x01#8
  | .malformedInput => 0x02#8
  | .illegalCommand => 0x03#8

/-- The response packet as the byte string the host receives: the status byte, then the data (R85, R86). -/
def responseBytes : Response → ByteString
  | .ok data => 0x00#8 :: data
  | .error e => [errCode e]

end Sys2Proof.Machine
end

