-- ==== Sys2Proof/Machine/Datapath.lean ====
section
/-!
DEFINITION. The round datapath as pure functions (41_block_compression.md): the arithmetic primitives (00_scope.md R11), the four
nonlinear functions (R145 to R148), one step (R143, R144), the add-back (R152) and the block compression `Compress` (R140).
-/
namespace Sys2Proof.Machine

/-- `add32`: the sum modulo 2^32, the carry discarded (R11, R153). -/
def add32 (x y : Word) : Word := x + y

/-- `add64`: the sum modulo 2^64 (R11, R125). -/
def add64 (x y : Dword) : Dword := x + y

/-- `not32`: the bitwise complement (R11, R155). -/
def not32 (x : Word) : Word := ~~~x

/-- `rotl32(x, s)`: `((x * 2^s) mod 2^32) or (x div 2^(32-s))` (R11, R154). -/
def rotl32 (x : Word) (s : Nat) : Word := (x <<< s) ||| (x >>> (32 - s))

/-- Stage 1: `(b&c)|(~b&d)` (R145). -/
def funF (b c d : Word) : Word := (b &&& c) ||| (not32 b &&& d)

/-- Stage 2: `(b&d)|(c&~d)` (R146). -/
def funG (b c d : Word) : Word := (b &&& d) ||| (c &&& not32 d)

/-- Stage 3: `b^c^d` (R147). -/
def funH (b c d : Word) : Word := b ^^^ c ^^^ d

/-- Stage 4: `c^(b|~d)` (R148). -/
def funI (b c d : Word) : Word := c ^^^ (b ||| not32 d)

/-- The nonlinear function that `fsel` selects (30_encoding.md R93). -/
def nonlinear (fsel : BitVec 2) (b c d : Word) : Word :=
  match fsel.toNat with
  | 0 => funF b c d
  | 1 => funG b c d
  | 2 => funH b c d
  | _ => funI b c d

/-- `t = a + f(b, c, d) + M[g] + K` of R143, with the fields of the control word `cw` (R92). `M` has 16 words, so the index `g`
of 4 bits is always inside it. -/
def stepSum (cw : ControlWord) (w : Quad) (m : List Word) : Word :=
  add32 (add32 (add32 w.a (nonlinear (cwFsel cw) w.b w.c w.d)) (m.getD (cwG cw).toNat 0)) (cwK cw)

/-- `Step(i, w, M)`: the new `(a, b, c, d)` is `(d, b + rotl32(t, s), b, c)` (R143, R144). -/
def stepQuad (i : Fin 64) (w : Quad) (m : List Word) : Quad :=
  ⟨w.d, add32 w.b (rotl32 (stepSum (romWord i) w m) (cwS (romWord i)).toNat), w.b, w.c⟩

/-- The working values after steps `0, 1, ..., n-1` in this order (R156). -/
def stepsQuad : Nat → Quad → List Word → Quad
  | 0, w, _ => w
  | n + 1, w, m => stepQuad (Fin.ofNat 64 n) (stepsQuad n w m) m

/-- The add-back: four independent `add32` (R152). -/
def addQuad (h w : Quad) : Quad := ⟨add32 h.a w.a, add32 h.b w.b, add32 h.c w.c, add32 h.d w.d⟩

/-- `Compress(h, block)` (R140), a pure function of its two arguments (R159). Irreducible, so that no proof unfolds the 64 steps
by accident; the kernel evaluates it all the same. -/
@[irreducible] def compress (h : Quad) (block : ByteString) : Quad := addQuad h (stepsQuad 64 h (messageWords block))

/-- The initialization constants A, B, C, D (40_digest_engine.md R110). -/
def initQuad : Quad := ⟨0x67452301#32, 0xefcdab89#32, 0x98badcfe#32, 0x10325476#32⟩

/-! ### The padding (40_digest_engine.md R115 to R118) -/

/-- The count `z` of zero bytes for `L` pending bytes (R116). -/
def padZeros (l : Nat) : Nat := if l < 56 then 55 - l else 119 - l

/-- `bitlen = (8 * total_length) mod 2^64` (R118). -/
def bitLength (totalLength : Dword) : Dword := 8#64 * totalLength

/-- `Pad(pending, total_length)`: the tail, 64 or 128 bytes (R115, R116). -/
def padTail (pending : ByteString) (totalLength : Dword) : ByteString :=
  pending ++ [0x80#8] ++ zeros (padZeros pending.length) ++ bytesLE64 (bitLength totalLength)

/-! ### The role-fixed form (R158) -/

/-- Step `i` of the role-fixed form: only register `p = (4 - (i mod 4)) mod 4` of `r[0..3]` is updated (R158). -/
def stepFixed (i : Fin 64) (r : Quad) (m : List Word) : Quad :=
  let cw := romWord i
  let upd (x y z u : Word) : Word := add32 y (rotl32 (stepSum cw ⟨x, y, z, u⟩ m) (cwS cw).toNat)
  match (4 - i.val % 4) % 4 with
  | 0 => ⟨upd r.a r.b r.c r.d, r.b, r.c, r.d⟩
  | 1 => ⟨r.a, upd r.b r.c r.d r.a, r.c, r.d⟩
  | 2 => ⟨r.a, r.b, upd r.c r.d r.a r.b, r.d⟩
  | _ => ⟨r.a, r.b, r.c, upd r.d r.a r.b r.c⟩

/-- The registers after steps `0, 1, ..., n-1` of the role-fixed form (R158). -/
def stepsFixed : Nat → Quad → List Word → Quad
  | 0, r, _ => r
  | n + 1, r, m => stepFixed (Fin.ofNat 64 n) (stepsFixed n r m) m

end Sys2Proof.Machine
end

