-- ==== Sys2Proof/Machine/Flags.lean ====
section
/-!
DEFINITION. The two lifecycle flags and the phase they define (10_state.md R25 to R27). There are no condition codes (R36).
-/
namespace Sys2Proof.Machine

/-- The phase of the engine (R27). -/
inductive Phase where
  /-- `valid = 0`: no DigestState. -/
  | empty
  /-- `valid = 1`, `finalized = 0`: a stream is being absorbed. -/
  | active
  /-- `valid = 1`, `finalized = 1`: FINISH has been done. -/
  | final
deriving DecidableEq, Repr

/-- The phase that the two flags define (R27). -/
def phaseOf (s : State) : Phase :=
  match s.valid, s.finalized with
  | false, _ => .empty
  | true, false => .active
  | true, true => .final

end Sys2Proof.Machine
end

