-- ==== Sys2Proof/Machine/Ops.lean ====
section
/-!
DEFINITION. The named operations on the state: answering a command, taking an error (60_exceptions.md R208), the reset event
(70_reset_and_hazards.md R230, R231), one block compression on the state (41_block_compression.md R140, R142, R152, R156), what
INIT, PROCESS and FINISH do to the DigestState (40_digest_engine.md), the one-shot computation (R122, R124) and the fetch.
-/
namespace Sys2Proof.Machine

/-! ### Responses and errors -/

/-- Give one response (30_encoding.md R85: exactly one per command packet), after the earlier ones (20_memory.md R62). -/
def respond (r : Response) (s : State) : State := { s with responses := s.responses ++ [r] }

/-- Taking an error, the one shared operation (R208): nothing is saved, no field of the DigestState changes, the response is the
status byte of `e`, control goes to no handler. The packet has been consumed by the fetch. There is no return from it (R209). -/
def raiseErr (e : Err) (s : State) : State := respond (.error e) s

/-! ### Reset -/

/-- The reset event (R230, R231): every field as after reset, what was in execution abandoned without a response. The streams are
the host's: what it sends next and what it has received stay. The fields that R37 leaves unspecified take the values of
`State.reset` (DESIGN CHOICE, unsafe; notes/assumptions/1.md, 2.md and 7.md). -/
def resetEvent (s : State) : State := { State.reset with inputs := s.inputs, responses := s.responses }

/-! ### One block compression on the state -/

/-- The start of a block compression: the block is in flight, the working values are copies of the accumulators, the step index
is 0 (R140, R142, R156). -/
def beginBlock (block : ByteString) (s : State) : State :=
  { s with blk := block, w := s.acc, stepIndex := 0, running := true }

/-- The step index after step `i` (R156: it becomes `i + 1`). After step 63 the block compression ends and the index is dead; it
never wraps (10_state.md R32), so it stays (DESIGN CHOICE, unsafe but unobservable; notes/assumptions/4.md). -/
def nextIndex (i : Fin 64) : Fin 64 := if i.val = 63 then i else Fin.ofNat 64 (i.val + 1)

/-- The step micro-operation with index `i`: `w <- Step(i, w, M)`, step index plus 1 (R143, R156). -/
def runStep (i : Fin 64) (s : State) : State :=
  { s with w := stepQuad i s.w (messageWords s.blk), stepIndex := nextIndex i }

/-- Steps `0, 1, ..., n-1` in this order (R156). -/
def runSteps : Nat → State → State
  | 0, s => s
  | n + 1, s => runStep (Fin.ofNat 64 n) (runSteps n s)

/-- The end of a block compression: the add-back into the accumulators (R152); the hidden state is dead afterwards (R31). -/
def addBack (s : State) : State := { s with acc := addQuad s.acc s.w, running := false }

/-- `acc <- Compress(acc, block)` on the state: begin, the 64 steps, the add-back (R140). Irreducible, as
`compress` is. -/
@[irreducible] def compressBlock (block : ByteString) (s : State) : State := addBack (runSteps 64 (beginBlock block s))

/-- The block compressions of the blocks `buf[64*j : 64*j + 64]` for `j = 0, 1, ..., n-1` in this order (40_digest_engine.md R111;
20_memory.md R63). -/
def compressBlocks : Nat → ByteString → State → State
  | 0, _, s => s
  | n + 1, buf, s =>
    compressBlock (slice buf (Config.blockBytes * n) (Config.blockBytes * n + Config.blockBytes)) (compressBlocks n buf s)

/-! ### What the Digest Engine commands do to the DigestState -/

/-- INIT: a fresh DigestState (R110). -/
def freshDigest (s : State) : State :=
  { s with acc := initQuad, pending := [], totalLength := 0, finalized := false, valid := true }

/-- PROCESS in phase ACTIVE: append, compress every complete block, keep the rest, count the bytes modulo 2^64 (R111, R125). -/
def absorb (p : ByteString) (s : State) : State :=
  let buf := s.pending ++ p
  let k := buf.length / Config.blockBytes
  { compressBlocks k buf s with
    pending := slice buf (Config.blockBytes * k) buf.length
    totalLength := add64 s.totalLength (BitVec.ofNat 64 p.length) }

/-- One payload byte of the byte-serial form of PROCESS (R112). -/
def absorbByte (x : Byte) (s : State) : State :=
  let buf := s.pending ++ [x]
  if s.pending.length = 63 then
    { compressBlock buf s with pending := [], totalLength := add64 s.totalLength 1 }
  else { s with pending := buf, totalLength := add64 s.totalLength 1 }

/-- FINISH in phase ACTIVE: pad, compress the one or two tail blocks, mark the state finalized (R115 to R120). The tail is formed
in the block in flight, not in `pending` (R120). -/
def finishDigest (s : State) : State :=
  let tail := padTail s.pending s.totalLength
  let s1 := compressBlock (slice tail 0 64) s
  let s2 := if tail.length = 128 then compressBlock (slice tail 64 128) s1 else s1
  { s2 with finalized := true }

/-- `MD5(p)`: the data of FINISH after INIT and PROCESS `p`, on a private state that does not outlive the command (R122, R124). -/
def md5 (p : ByteString) : ByteString :=
  serialize (finishDigest (absorb p (freshDigest State.reset))).acc

/-! ### Fetch -/

/-- What the engine takes up next. -/
inductive Fetched where
  /-- Nothing has been sent: the engine is idle (R230). -/
  | idle
  /-- The reset event, with the inputs after it (R230). -/
  | reset (rest : List Input)
  /-- A command packet, with the inputs after it (20_memory.md R62). -/
  | command (p : Packet) (rest : List Input)
  /-- A step control word, `ROM[step]`, inside a block compression (20_memory.md R67). -/
  | control (cw : ControlWord)
deriving DecidableEq, Repr

/-- The fetch. A reset event is taken at once, also inside a block compression, which it abandons (R231). Inside a block
compression the only thing fetched is `ROM[step]` (R67) and no command is accepted (R62). Otherwise the oldest packet is taken. -/
def fetch (s : State) : Fetched :=
  match s.inputs with
  | .reset _ :: rest => .reset rest
  | .packet p :: rest => if s.running then .control (romWord s.stepIndex) else .command p rest
  | [] => if s.running then .control (romWord s.stepIndex) else .idle

/-- What the sequencer does after step `i` of the block compression: after step 63 the add-back, which ends it (R156). -/
def afterStep (i : Fin 64) (s : State) : State := if i.val = 63 then addBack s else s

/-- The index of `ROM` that holds the control word `cw`, if one does (R34, R94). -/
def romIndex (cw : ControlWord) : Option (Fin 64) :=
  match stepTable.findIdx? (fun row => row.1 == cw) with
  | some n => if h : n < 64 then some ⟨n, h⟩ else none
  | none => none

/-- `s` made to fetch the encoded object `e` next: a packet becomes the oldest input of an idle engine; for a control word, which
stands in the constant `ROM`, the engine is inside a block compression with the step index at its entry. A word that `ROM` does
not hold cannot be fetched, and then `s` is unchanged (notes/assumptions/5.md). -/
def placeObject (e : Encoded) (s : State) : State :=
  match e with
  | .packet p => { s with inputs := .packet p :: s.inputs, running := false }
  | .controlWord cw =>
    match romIndex cw with
    | none => s
    | some i =>
      { s with
        inputs := s.inputs.dropWhile (fun x => match x with | .reset _ => true | .packet _ => false)
        stepIndex := i
        running := true }

end Sys2Proof.Machine
end

