-- ==== Sys2Proof/Machine/Codec.lean ====
section
/-!
DEFINITION. The meanings of the Signature Codec commands ENCODE and DECODE (42_signature_codec.md); neither reads or writes the
DigestState (R187).
-/
namespace Sys2Proof.Machine

/-- ENCODE (R180). The decoder accepts it with a 16-byte payload only; with another length the packet is no well-formed command
and is refused as 30_encoding.md R89 says (notes/assumptions/10.md). -/
def execEncode (d : ByteString) (s : State) : Host.Outcome State Fault Refusal :=
  if d.length = Config.digestBytes then .next (respond (.ok (encodeHex d)) s)
  else .next (raiseErr .illegalCommand s)

/-- DECODE (R183): `MalformedInput` unless the payload is exactly 32 hex characters (R184). -/
def execDecode (t : ByteString) (s : State) : Host.Outcome State Fault Refusal :=
  match decodeHex t with
  | some d => .next (respond (.ok d) s)
  | none => .next (raiseErr .malformedInput s)

end Sys2Proof.Machine
end

