-- ==== Sys2Proof/Machine/Digest.lean ====
section
/-!
DEFINITION. The meanings of the Digest Engine commands INIT, PROCESS, FINISH and ONESHOT (40_digest_engine.md).
-/
namespace Sys2Proof.Machine

/-- INIT, accepted in every phase (R110). -/
def execInit (s : State) : Host.Outcome State Fault Refusal :=
  .next (respond (.ok []) (freshDigest s))

/-- PROCESS (R111): `InvalidState` unless the phase is ACTIVE, whatever the payload (60_exceptions.md R201). -/
def execProcess (p : ByteString) (s : State) : Host.Outcome State Fault Refusal :=
  match phaseOf s with
  | .active => .next (respond (.ok []) (absorb p s))
  | .empty | .final => .next (raiseErr .invalidState s)

/-- FINISH: in ACTIVE it pads and finalises (R115), in FINAL it reads the digest again (R121), in EMPTY it raises `InvalidState`
(60_exceptions.md R201). -/
def execFinish (s : State) : Host.Outcome State Fault Refusal :=
  match phaseOf s with
  | .active => .next (respond (.ok (serialize (finishDigest s).acc)) (finishDigest s))
  | .final => .next (respond (.ok (serialize s.acc)) s)
  | .empty => .next (raiseErr .invalidState s)

/-- ONESHOT: the digest of the payload, computed on a private state; the engine's own state is as before (R122). -/
def execOneshot (p : ByteString) (s : State) : Host.Outcome State Fault Refusal :=
  .next (respond (.ok (md5 p)) s)

end Sys2Proof.Machine
end

