-- ==== Sys2Proof/Machine/Steps.lean ====
section
/-!
DEFINITION. The meanings of the step micro-operations STEP0 to STEP63, each one line over the shared `runStep`
(41_block_compression.md R143); their fields come from `ROM` (R145 to R148; 30_encoding.md R94).
-/
namespace Sys2Proof.Machine

/-- STEP0 (R145). -/
def execStep0 (s : State) : Host.Outcome State Fault Refusal := .next (runStep 0 s)

/-- STEP1 (R145). -/
def execStep1 (s : State) : Host.Outcome State Fault Refusal := .next (runStep 1 s)

/-- STEP2 (R145). -/
def execStep2 (s : State) : Host.Outcome State Fault Refusal := .next (runStep 2 s)

/-- STEP3 (R145). -/
def execStep3 (s : State) : Host.Outcome State Fault Refusal := .next (runStep 3 s)

/-- STEP4 (R145). -/
def execStep4 (s : State) : Host.Outcome State Fault Refusal := .next (runStep 4 s)

/-- STEP5 (R145). -/
def execStep5 (s : State) : Host.Outcome State Fault Refusal := .next (runStep 5 s)

/-- STEP6 (R145). -/
def execStep6 (s : State) : Host.Outcome State Fault Refusal := .next (runStep 6 s)

/-- STEP7 (R145). -/
def execStep7 (s : State) : Host.Outcome State Fault Refusal := .next (runStep 7 s)

/-- STEP8 (R145). -/
def execStep8 (s : State) : Host.Outcome State Fault Refusal := .next (runStep 8 s)

/-- STEP9 (R145). -/
def execStep9 (s : State) : Host.Outcome State Fault Refusal := .next (runStep 9 s)

/-- STEP10 (R145). -/
def execStep10 (s : State) : Host.Outcome State Fault Refusal := .next (runStep 10 s)

/-- STEP11 (R145). -/
def execStep11 (s : State) : Host.Outcome State Fault Refusal := .next (runStep 11 s)

/-- STEP12 (R145). -/
def execStep12 (s : State) : Host.Outcome State Fault Refusal := .next (runStep 12 s)

/-- STEP13 (R145). -/
def execStep13 (s : State) : Host.Outcome State Fault Refusal := .next (runStep 13 s)

/-- STEP14 (R145). -/
def execStep14 (s : State) : Host.Outcome State Fault Refusal := .next (runStep 14 s)

/-- STEP15 (R145). -/
def execStep15 (s : State) : Host.Outcome State Fault Refusal := .next (runStep 15 s)

/-- STEP16 (R146). -/
def execStep16 (s : State) : Host.Outcome State Fault Refusal := .next (runStep 16 s)

/-- STEP17 (R146). -/
def execStep17 (s : State) : Host.Outcome State Fault Refusal := .next (runStep 17 s)

/-- STEP18 (R146). -/
def execStep18 (s : State) : Host.Outcome State Fault Refusal := .next (runStep 18 s)

/-- STEP19 (R146). -/
def execStep19 (s : State) : Host.Outcome State Fault Refusal := .next (runStep 19 s)

/-- STEP20 (R146). -/
def execStep20 (s : State) : Host.Outcome State Fault Refusal := .next (runStep 20 s)

/-- STEP21 (R146). -/
def execStep21 (s : State) : Host.Outcome State Fault Refusal := .next (runStep 21 s)

/-- STEP22 (R146). -/
def execStep22 (s : State) : Host.Outcome State Fault Refusal := .next (runStep 22 s)

/-- STEP23 (R146). -/
def execStep23 (s : State) : Host.Outcome State Fault Refusal := .next (runStep 23 s)

/-- STEP24 (R146). -/
def execStep24 (s : State) : Host.Outcome State Fault Refusal := .next (runStep 24 s)

/-- STEP25 (R146). -/
def execStep25 (s : State) : Host.Outcome State Fault Refusal := .next (runStep 25 s)

/-- STEP26 (R146). -/
def execStep26 (s : State) : Host.Outcome State Fault Refusal := .next (runStep 26 s)

/-- STEP27 (R146). -/
def execStep27 (s : State) : Host.Outcome State Fault Refusal := .next (runStep 27 s)

/-- STEP28 (R146). -/
def execStep28 (s : State) : Host.Outcome State Fault Refusal := .next (runStep 28 s)

/-- STEP29 (R146). -/
def execStep29 (s : State) : Host.Outcome State Fault Refusal := .next (runStep 29 s)

/-- STEP30 (R146). -/
def execStep30 (s : State) : Host.Outcome State Fault Refusal := .next (runStep 30 s)

/-- STEP31 (R146). -/
def execStep31 (s : State) : Host.Outcome State Fault Refusal := .next (runStep 31 s)

/-- STEP32 (R147). -/
def execStep32 (s : State) : Host.Outcome State Fault Refusal := .next (runStep 32 s)

/-- STEP33 (R147). -/
def execStep33 (s : State) : Host.Outcome State Fault Refusal := .next (runStep 33 s)

/-- STEP34 (R147). -/
def execStep34 (s : State) : Host.Outcome State Fault Refusal := .next (runStep 34 s)

/-- STEP35 (R147). -/
def execStep35 (s : State) : Host.Outcome State Fault Refusal := .next (runStep 35 s)

/-- STEP36 (R147). -/
def execStep36 (s : State) : Host.Outcome State Fault Refusal := .next (runStep 36 s)

/-- STEP37 (R147). -/
def execStep37 (s : State) : Host.Outcome State Fault Refusal := .next (runStep 37 s)

/-- STEP38 (R147). -/
def execStep38 (s : State) : Host.Outcome State Fault Refusal := .next (runStep 38 s)

/-- STEP39 (R147). -/
def execStep39 (s : State) : Host.Outcome State Fault Refusal := .next (runStep 39 s)

/-- STEP40 (R147). -/
def execStep40 (s : State) : Host.Outcome State Fault Refusal := .next (runStep 40 s)

/-- STEP41 (R147). -/
def execStep41 (s : State) : Host.Outcome State Fault Refusal := .next (runStep 41 s)

/-- STEP42 (R147). -/
def execStep42 (s : State) : Host.Outcome State Fault Refusal := .next (runStep 42 s)

/-- STEP43 (R147). -/
def execStep43 (s : State) : Host.Outcome State Fault Refusal := .next (runStep 43 s)

/-- STEP44 (R147). -/
def execStep44 (s : State) : Host.Outcome State Fault Refusal := .next (runStep 44 s)

/-- STEP45 (R147). -/
def execStep45 (s : State) : Host.Outcome State Fault Refusal := .next (runStep 45 s)

/-- STEP46 (R147). -/
def execStep46 (s : State) : Host.Outcome State Fault Refusal := .next (runStep 46 s)

/-- STEP47 (R147). -/
def execStep47 (s : State) : Host.Outcome State Fault Refusal := .next (runStep 47 s)

/-- STEP48 (R148). -/
def execStep48 (s : State) : Host.Outcome State Fault Refusal := .next (runStep 48 s)

/-- STEP49 (R148). -/
def execStep49 (s : State) : Host.Outcome State Fault Refusal := .next (runStep 49 s)

/-- STEP50 (R148). -/
def execStep50 (s : State) : Host.Outcome State Fault Refusal := .next (runStep 50 s)

/-- STEP51 (R148). -/
def execStep51 (s : State) : Host.Outcome State Fault Refusal := .next (runStep 51 s)

/-- STEP52 (R148). -/
def execStep52 (s : State) : Host.Outcome State Fault Refusal := .next (runStep 52 s)

/-- STEP53 (R148). -/
def execStep53 (s : State) : Host.Outcome State Fault Refusal := .next (runStep 53 s)

/-- STEP54 (R148). -/
def execStep54 (s : State) : Host.Outcome State Fault Refusal := .next (runStep 54 s)

/-- STEP55 (R148). -/
def execStep55 (s : State) : Host.Outcome State Fault Refusal := .next (runStep 55 s)

/-- STEP56 (R148). -/
def execStep56 (s : State) : Host.Outcome State Fault Refusal := .next (runStep 56 s)

/-- STEP57 (R148). -/
def execStep57 (s : State) : Host.Outcome State Fault Refusal := .next (runStep 57 s)

/-- STEP58 (R148). -/
def execStep58 (s : State) : Host.Outcome State Fault Refusal := .next (runStep 58 s)

/-- STEP59 (R148). -/
def execStep59 (s : State) : Host.Outcome State Fault Refusal := .next (runStep 59 s)

/-- STEP60 (R148). -/
def execStep60 (s : State) : Host.Outcome State Fault Refusal := .next (runStep 60 s)

/-- STEP61 (R148). -/
def execStep61 (s : State) : Host.Outcome State Fault Refusal := .next (runStep 61 s)

/-- STEP62 (R148). -/
def execStep62 (s : State) : Host.Outcome State Fault Refusal := .next (runStep 62 s)

/-- STEP63 (R148). -/
def execStep63 (s : State) : Host.Outcome State Fault Refusal := .next (runStep 63 s)

end Sys2Proof.Machine
end

