-- ==== Sys2Proof/Machine/Step.lean ====
section
/-!
DEFINITION. One step of the machine: take up what is fetched, decode it, execute it (20_memory.md R62, R67); and the placement of
an opcode-table word where the step fetches.
-/
namespace Sys2Proof.Machine

/-- What follows the meaning of a step micro-operation: the sequencer's own part (41_block_compression.md R156). -/
def stepOutcome (i : Fin 64) (o : Host.Outcome State Fault Refusal) : Host.Outcome State Fault Refusal :=
  match o with
  | .next t => .next (afterStep i t)
  | .fault f => .fault f
  | .refused r => .refused r

/-- One step. With nothing to do the engine is idle and holds its state (60_exceptions.md section 12). A packet that decodes is
executed after it has left the input stream; one that does not raises `IllegalCommand` and is consumed (30_encoding.md R88, R89;
60_exceptions.md R203, R208). Inside a block compression the control word `ROM[step]` is decoded and its step executed, and after
step 63 the add-back ends the block compression (R156). -/
def step (s : State) : Host.Outcome State Fault Refusal :=
  match fetch s with
  | .idle => .next s
  | .reset rest => .next (resetEvent { s with inputs := rest })
  | .command p rest =>
    match decodePacket p with
    | .ok i => exec i { s with inputs := rest }
    | .error _ => .next (raiseErr .illegalCommand { s with inputs := rest })
  | .control cw =>
    match decodeControlWord cw with
    | .ok i => stepOutcome s.stepIndex (exec i s)
    | .error _ => .refused .unlistedControlWord

/-- `s` with the instruction of an opcode-table word placed where `step` fetches its next instruction. -/
def State.withFetchWord (s : State) (nbits w : Nat) : State :=
  match tableObject nbits w with
  | some e => placeObject e s
  | none => s

end Sys2Proof.Machine
end

