-- ==== Sys2Proof/Machine/Engines.lean ====
section
/-!
DEFINITION. Several engines (60_exceptions.md R212): each is a complete copy of the state with its own streams, and a step of one
is a step of no other (20_memory.md R66).
-/
namespace Sys2Proof.Machine

/-- Engine `j` of a list of engines makes one step; the others do nothing. A number that is no engine's steps none. -/
def stepEngine (j : Nat) (es : List State) : Host.Outcome (List State) Fault Refusal :=
  match es[j]? with
  | none => .next es
  | some s =>
    match step s with
    | .next t => .next (es.set j t)
    | .fault f => .fault f
    | .refused r => .refused r

end Sys2Proof.Machine
end

