-- ==== Sys2Proof/Machine/Text.lean ====
section
/-!
DEFINITION. The textual lines in which the spec writes commands (30_encoding.md R95): items that stand for bytes, and lines that
are exactly one packet.
-/
namespace Sys2Proof.Machine

/-- An item of `<bytes>` (R95). -/
inductive Item where
  /-- A quoted ASCII string, as its characters. -/
  | ascii (cs : List Char)
  /-- A hex literal, as its bytes. -/
  | hex (bs : ByteString)
  /-- A repetition `<item>*<count>`. -/
  | rep (item : Item) (count : Nat)
deriving DecidableEq, Repr

/-- The bytes an item stands for. -/
def itemBytes : Item → ByteString
  | .ascii cs => cs.map (fun c => BitVec.ofNat 8 c.toNat)
  | .hex bs => bs
  | .rep item count => (List.replicate count (itemBytes item)).flatten

/-- The bytes a sequence of items stands for, in order. -/
def itemsBytes (items : List Item) : ByteString := (items.map itemBytes).flatten

/-- A command line: a mnemonic and its `<bytes>`. -/
inductive Line where
  | init
  | process (items : List Item)
  | finish
  | oneshot (items : List Item)
  | encode (items : List Item)
  | decode (items : List Item)
deriving DecidableEq, Repr

/-- The packet a line stands for: the command byte of R83 followed by the bytes of the items. -/
def linePacket : Line → Packet
  | .init => ⟨0x00#8, []⟩
  | .process items => ⟨0x01#8, itemsBytes items⟩
  | .finish => ⟨0x02#8, []⟩
  | .oneshot items => ⟨0x03#8, itemsBytes items⟩
  | .encode items => ⟨0x04#8, itemsBytes items⟩
  | .decode items => ⟨0x05#8, itemsBytes items⟩

end Sys2Proof.Machine
end

