-- ==== Sys2Proof/Safety.lean ====
section
/-!
DEFINITION. The terms in which claims are made: the invariant of the state, equality of the DigestState, what the host observes,
and runs of several instructions.
-/
namespace Sys2Proof.Machine

/-- What every state of the hardware satisfies: fewer than 64 pending bytes (10_state.md R22, R23), a block in flight of 64 bytes
(R33), and `pending_len = total_length mod 64` whenever `valid = 1` (R29). -/
structure State.Inv (s : State) : Prop where
  pendingLt : s.pending.length < 64
  blkLength : s.blk.length = 64
  lengthsAgree : s.valid = true → s.pending.length = s.totalLength.toNat % 64

/-- The DigestState of two states is the same in every field (R20). -/
def SameDigest (s t : State) : Prop :=
  t.acc = s.acc ∧ t.pending = s.pending ∧ t.totalLength = s.totalLength ∧ t.finalized = s.finalized ∧ t.valid = s.valid

/-- The hidden state of two states is the same in every field (R31 to R33). -/
def SameHidden (s t : State) : Prop :=
  t.w = s.w ∧ t.stepIndex = s.stepIndex ∧ t.blk = s.blk ∧ t.running = s.running

/-- A step is safe when the machine goes on: it neither faults nor is refused. -/
def Goes (s : State) : Prop := ∃ t, step s = .next t

/-- Execute a list of instructions in order, stopping at the first fault or refusal. -/
def execAll : List Instr → State → Host.Outcome State Fault Refusal
  | [], s => .next s
  | i :: rest, s =>
    match exec i s with
    | .next t => execAll rest t
    | .fault f => .fault f
    | .refused r => .refused r

/-- A schedule of steps of several engines: the numbers of the engines that step, in order (20_memory.md R66). -/
def runEngines : List Nat → List State → Host.Outcome (List State) Fault Refusal
  | [], es => .next es
  | j :: rest, es =>
    match stepEngine j es with
    | .next es' => runEngines rest es'
    | .fault f => .fault f
    | .refused r => .refused r

/-- What one step computes from its row of the step control table (41_block_compression.md R143): the stage's function `f`, the
word index `g`, the rotate amount `r` and the additive constant `k`. -/
def rowStep (f : Word → Word → Word → Word) (g r : Nat) (k : Word) (w : Quad) (m : List Word) : Quad :=
  ⟨w.d, add32 w.b (rotl32 (add32 (add32 (add32 w.a (f w.b w.c w.d)) (m.getD g 0)) k) r), w.b, w.c⟩

/-- The chain of block compressions over the first `n` blocks of a byte string, from the accumulators `h`
(40_digest_engine.md R111, R124). -/
def chain (n : Nat) (buf : ByteString) (h : Quad) : Quad :=
  (List.range n).foldl (fun h j => compress h (slice buf (64 * j) (64 * j + 64))) h

/-- A packet is a well-formed command: a legal command byte with a payload of the length it asks for (30_encoding.md R83, R84). -/
def LegalPacket (p : Packet) : Prop :=
  p.cmd = 0x00#8 ∧ p.payload.length = 0 ∨ p.cmd = 0x01#8 ∨ p.cmd = 0x02#8 ∧ p.payload.length = 0 ∨ p.cmd = 0x03#8 ∨
    p.cmd = 0x04#8 ∧ p.payload.length = 16 ∨ p.cmd = 0x05#8

/-- A character code is one of the 22 hex codes (42_signature_codec.md R184). -/
def HexCode (c : Byte) : Prop :=
  0x30 ≤ c.toNat ∧ c.toNat ≤ 0x39 ∨ 0x61 ≤ c.toNat ∧ c.toNat ≤ 0x66 ∨ 0x41 ≤ c.toNat ∧ c.toNat ≤ 0x46

/-- A byte string is well-formed as DECODE's input (42_signature_codec.md R184). -/
def WellFormedSignature (t : ByteString) : Prop := t.length = 32 ∧ ∀ c ∈ t, HexCode c

/-- Two states that the host cannot tell apart: no block compression is in flight, the streams agree, `valid` agrees, and where
`valid = 1` the whole DigestState agrees. The hidden state, and the DigestState where `valid = 0`, may differ
(10_state.md R26, R31 to R33). -/
structure HostEqual (s t : State) : Prop where
  idleLeft : s.running = false
  idleRight : t.running = false
  inputsEq : t.inputs = s.inputs
  responsesEq : t.responses = s.responses
  validEq : t.valid = s.valid
  digestEq : s.valid = true → SameDigest s t

/-- The oldest input, if there is one, is not a reset event. -/
def NoResetNext (s : State) : Prop := ∀ cut rest, s.inputs ≠ .reset cut :: rest

end Sys2Proof.Machine
end

