-- ==== Sys2Proof/Certificates/Slice0/Obligations.lean ====
section
/-!
DEFINITION. The statements for the provers: one definition per obligation of OBLIGATIONS.json. Rules are cited R<n>; a rule that
the spec marks as its own decision or as general knowledge is named so.
-/

open Sys2Proof Sys2Proof.Machine

/-- The encodings are the spec's own choice (30_encoding.md, decisions D2, D4 and D13). -/
def Obligations.DecodingAnEncodingGivesTheInstructionBack : Prop :=
  ∀ i : Instr, i.WellFormed → decode (encode i) = .ok i

/-- The other direction of the round trip. -/
def Obligations.EveryDecodedObjectIsTheInstructionsEncoding : Prop :=
  ∀ (e : Encoded) (i : Instr), decode e = .ok i → encode i = e ∧ i.WellFormed

/-- The reserved and illegal encodings of 30_encoding.md section 4 (decision D4). -/
def Obligations.LegalPacketsAreExactlyTheDecodedOnes : Prop :=
  (∀ p : Packet, (∃ i, decodePacket p = .ok i) ↔ LegalPacket p) ∧
    (∀ c : Byte, (∃ payload, LegalPacket ⟨c, payload⟩) ↔ c.toNat ≤ 5)

/-- A sanity statement on concrete words. -/
def Obligations.WrittenWordsDecodeToTheirInstructions : Prop :=
  decodePacket ⟨0x00#8, []⟩ = .ok .init ∧
    decodePacket ⟨0x01#8, [0x61#8, 0x62#8, 0x63#8]⟩ = .ok (.process [0x61#8, 0x62#8, 0x63#8]) ∧
    decodePacket ⟨0x02#8, []⟩ = .ok .finish ∧
    decodePacket ⟨0x03#8, [0x61#8]⟩ = .ok (.oneshot [0x61#8]) ∧
    decodePacket ⟨0x04#8, List.replicate 16 0x00#8⟩ = .ok (.encode (List.replicate 16 0x00#8)) ∧
    decodePacket ⟨0x05#8, [0x7a#8, 0x7a#8]⟩ = .ok (.decode [0x7a#8, 0x7a#8]) ∧
    decodeControlWord (0#2 ++ 0#4 ++ 7#5 ++ 0xd76aa478#32) = .ok .step0 ∧
    decodeControlWord (1#2 ++ 1#4 ++ 5#5 ++ 0xf61e2562#32) = .ok .step16 ∧
    decodeControlWord (2#2 ++ 5#4 ++ 4#5 ++ 0xfffa3942#32) = .ok .step32 ∧
    decodeControlWord (3#2 ++ 0#4 ++ 6#5 ++ 0xf4292244#32) = .ok .step48

/-- One command packet is one step of the machine (notes/assumptions/5.md). -/
def Obligations.StepExecutesTheDecodedCommand : Prop :=
  ∀ (s : State) (p : Packet) (rest : List Input) (i : Instr),
    s.running = false → s.inputs = .packet p :: rest → decodePacket p = .ok i →
      step s = exec i { s with inputs := rest }

/-- The view from inside one block compression (notes/assumptions/5.md). -/
def Obligations.StepExecutesTheFetchedStepMicroOperation : Prop :=
  ∀ s : State, s.running = true → NoResetNext s →
    decodeControlWord (romWord s.stepIndex) = .ok (stepInstr s.stepIndex) ∧
      ∃ t, exec (stepInstr s.stepIndex) s = .next t ∧
        step s = .next (if s.stepIndex.val = 63 then addBack t else t)

/-- R200 ("There is no other error, fault or exception"), R208 and R238 ("every command terminates") for the whole machine. -/
def Obligations.EveryStepAnswersANextState : Prop :=
  ∀ s : State, Goes s

/-- Illegal packets (R88, R89, R203), the spec's decision D4. -/
def Obligations.AnIllegalPacketIsDiscardedWithoutEffect : Prop :=
  ∀ (s : State) (p : Packet) (rest : List Input),
    s.running = false → s.inputs = .packet p :: rest → ¬ LegalPacket p →
      step s = .next { s with inputs := rest, responses := s.responses ++ [.error .illegalCommand] } ∧
        responseBytes (.error .illegalCommand) = [0x03#8]

/-- R207 with the causes of R201 to R203; the order is the spec's decision D22. -/
def Obligations.TheFirstFailingCheckDecidesTheResponse : Prop :=
  ∀ (s : State) (p : Packet) (rest : List Input), s.running = false → s.inputs = .packet p :: rest →
    ∃ (t : State) (r : Response), step s = .next t ∧ t.responses = s.responses ++ [r] ∧
      (¬ LegalPacket p → r = .error .illegalCommand) ∧
      (LegalPacket p →
        (p.cmd = 0x01#8 ∧ phaseOf s ≠ .active ∨ p.cmd = 0x02#8 ∧ phaseOf s = .empty → r = .error .invalidState) ∧
        (p.cmd = 0x05#8 ∧ ¬ WellFormedSignature p.payload → r = .error .malformedInput) ∧
        (¬ (p.cmd = 0x01#8 ∧ phaseOf s ≠ .active ∨ p.cmd = 0x02#8 ∧ phaseOf s = .empty) →
          ¬ (p.cmd = 0x05#8 ∧ ¬ WellFormedSignature p.payload) → ∃ data, r = .ok data))

/-- R214. -/
def Obligations.OperationsThatCannotFailAnswerOk : Prop :=
  ∀ (s : State) (p : Packet) (rest : List Input), s.running = false → s.inputs = .packet p :: rest →
    ∃ (t : State) (r : Response), step s = .next t ∧ t.responses = s.responses ++ [r] ∧
      (p = ⟨0x00#8, []⟩ → ∃ data, r = .ok data) ∧
      (p.cmd = 0x01#8 → phaseOf s = .active → ∃ data, r = .ok data) ∧
      (p = ⟨0x02#8, []⟩ → phaseOf s = .active ∨ phaseOf s = .final → ∃ data, r = .ok data) ∧
      (p.cmd = 0x03#8 → ∃ data, r = .ok data) ∧
      (p.cmd = 0x04#8 → p.payload.length = 16 → ∃ data, r = .ok data) ∧
      (p.cmd = 0x05#8 → ((∃ data, r = .ok data) ↔ WellFormedSignature p.payload))

/-- R230, R231 (the spec's decisions D5, D23). That the reset event is an input entry, taken at once when it is the oldest and
consumed with the later inputs kept, is the model's DESIGN CHOICE of notes/assumptions/7.md, and that the responses already given
stay is that of notes/assumptions/8.md. The values of the fields that R37 leaves unspecified are the model's choice
(notes/assumptions/1.md, 2.md) and are not stated. -/
def Obligations.AResetEventAbandonsEverythingWithoutAResponse : Prop :=
  ∀ (s : State) (cut : ByteString) (rest : List Input), s.inputs = .reset cut :: rest →
    ∃ t, step s = .next t ∧ t.valid = false ∧ t.finalized = false ∧ t.running = false ∧ t.inputs = rest ∧
      t.responses = s.responses

/-- R230: "the engine does nothing until the host sends a packet". -/
def Obligations.AnIdleEngineHoldsItsState : Prop :=
  ∀ s : State, s.running = false → s.inputs = [] → step s = .next s

/-- R37. That the invariant holds also rests on the model's values of unspecified fields (notes/assumptions/1.md, 2.md). -/
def Obligations.ResetLeavesAnEmptyEngine : Prop :=
  State.reset.valid = false ∧ State.reset.finalized = false ∧ phaseOf State.reset = .empty ∧
    State.reset.running = false ∧ State.reset.inputs = [] ∧ State.reset.responses = [] ∧ State.reset.Inv

/-- R22, R23 and the invariant of R29 (which the spec derives). -/
def Obligations.EveryStepKeepsTheInvariant : Prop :=
  ∀ s t : State, s.Inv → step s = .next t → t.Inv

/-- R27, a rule the spec derives. -/
def Obligations.OnlyInitAndFinishMoveThePhase : Prop :=
  ∀ (i : Instr) (s t : State), exec i s = .next t →
    phaseOf t =
      match i with
      | .init => .active
      | .finish => if phaseOf s = .active then .final else phaseOf s
      | _ => phaseOf s

/-- R24 with C4; that the counter wraps modulo 2^64 is the spec's decision D11 (notes/assumptions/13.md, DEDUCED). -/
def Obligations.TotalLengthCountsProcessedBytesOnly : Prop :=
  ∀ (i : Instr) (s t : State), exec i s = .next t →
    t.totalLength =
      (match i with
      | .init => 0#64
      | .process p => if phaseOf s = .active then s.totalLength + BitVec.ofNat 64 p.length else s.totalLength
      | _ => s.totalLength) ∧
    (i ≠ .init → (∀ p, i = .process p → s.totalLength.toNat + p.length < 2 ^ 64) →
      s.totalLength.toNat ≤ t.totalLength.toNat)

/-- R25. That FINISH with finalized = 1 only answers again is the spec's decision D8, and that PROCESS with valid = 0 is refused
is its decision D7 (notes/assumptions/13.md, DEDUCED). -/
def Obligations.FinalizedIsSetByFinishAndClearedByInit : Prop :=
  (∀ (i : Instr) (s t : State), exec i s = .next t →
      t.finalized =
        match i with
        | .init => false
        | .finish => if s.valid = true then true else s.finalized
        | _ => s.finalized) ∧
    (∀ (p : ByteString) (s : State), s.finalized = true →
      exec (.process p) s = .next { s with responses := s.responses ++ [.error .invalidState] }) ∧
    (∀ s : State, s.valid = true → s.finalized = true →
      exec .finish s = .next { s with responses := s.responses ++ [.ok (serialize s.acc)] }) ∧
    (∀ s : State, s.valid = true → s.finalized = false → s.pending.length < 64 →
      ∃ t, exec .finish s = .next t ∧ t.finalized = true ∧
        t.acc = chain ((padTail s.pending s.totalLength).length / 64) (padTail s.pending s.totalLength) s.acc ∧
        t.responses = s.responses ++ [.ok (serialize t.acc)]) ∧
    (∀ (i : Instr) (s t : State) (b : Bool), i ≠ .init → i ≠ .finish → (∀ p, i ≠ .process p) → exec i s = .next t →
      exec i { s with finalized := b } = .next { t with finalized := b }) ∧
    (∀ (s t : State) (b : Bool), exec .init s = .next t → exec .init { s with finalized := b } = .next t)

/-- R208, R213. -/
def Obligations.ACommandThatEndsInAnErrorWritesNothing : Prop :=
  ∀ (i : Instr) (s t : State) (e : Err), exec i s = .next t → t.responses = s.responses ++ [.error e] →
    t = { s with responses := s.responses ++ [.error e] }

/-- R202. -/
def Obligations.OnlyDecodeRaisesMalformedInput : Prop :=
  (∀ (i : Instr) (s t : State), exec i s = .next t → t.responses = s.responses ++ [.error .malformedInput] →
      ∃ p, i = .decode p ∧ ¬ WellFormedSignature p) ∧
    (∀ (p : ByteString) (s : State), ¬ WellFormedSignature p →
      exec (.decode p) s = .next { s with responses := s.responses ++ [.error .malformedInput] }) ∧
    responseBytes (.error .malformedInput) = [0x02#8]

/-- R85, R86. -/
def Obligations.EachStepAnswersAtMostOneWellFormedResponse : Prop :=
  ∀ s t : State, step s = .next t →
    t.responses = s.responses ∨
      ∃ r, t.responses = s.responses ++ [r] ∧
        (responseBytes r = [0x01#8] ∨ responseBytes r = [0x02#8] ∨ responseBytes r = [0x03#8] ∨
          ∃ data, responseBytes r = 0x00#8 :: data ∧ (data.length = 0 ∨ data.length = 16 ∨ data.length = 32))

/-- R26, R30, R31 and section 8 of 10_state.md. It is why the model's choices of notes/assumptions/1.md, 2.md and 4.md cannot be
observed. -/
def Obligations.TheHostSeesOnlyTheLiveDigestState : Prop :=
  ∀ (n : Nat) (s t : State), HostEqual s t →
    ∃ s' t', Host.Core.run Sys2Proof.core n s = .next s' ∧ Host.Core.run Sys2Proof.core n t = .next t' ∧ HostEqual s' t'

/-- R66, R212. That several engines are a list of states of which one steps at a time is the model's DESIGN CHOICE of
notes/assumptions/14.md. -/
def Obligations.InterleavedEnginesComputeAsIfAlone : Prop :=
  ∀ (schedule : List Nat) (es : List State), ∃ es', runEngines schedule es = .next es' ∧ es'.length = es.length ∧
    ∀ (j : Nat) (s : State), es[j]? = some s →
      ∃ t, Host.Core.run Sys2Proof.core (schedule.count j) s = .next t ∧ es'[j]? = some t

/-- R110. -/
def Obligations.InitGivesAFreshDigestState : Prop :=
  (∀ s : State,
      exec .init s = .next
        { s with
          acc := ⟨0x67452301#32, 0xefcdab89#32, 0x98badcfe#32, 0x10325476#32⟩
          pending := [], totalLength := 0#64, finalized := false, valid := true
          responses := s.responses ++ [.ok []] }) ∧
    encode .init = .packet ⟨0x00#8, []⟩ ∧
    (∀ (x : Byte) (p : ByteString), decodePacket ⟨0x00#8, x :: p⟩ = .error .payloadLength) ∧
    (∀ s t u : State, exec .init s = .next t → exec .init t = .next u → SameDigest t u)

/-- R111 with its Errors line; that PROCESS with valid = 0 is refused so is the spec's decision D7. -/
def Obligations.ProcessCompressesEveryCompleteBlock : Prop :=
  ∀ (s : State) (p : ByteString),
    encode (.process p) = .packet ⟨0x01#8, p⟩ ∧
    (s.valid = true ∧ s.finalized = false →
      ∃ t, exec (.process p) s = .next t ∧
        t.acc = chain ((s.pending ++ p).length / 64) (s.pending ++ p) s.acc ∧
        t.pending = (s.pending ++ p).drop (64 * ((s.pending ++ p).length / 64)) ∧
        t.totalLength = s.totalLength + BitVec.ofNat 64 p.length ∧
        t.finalized = s.finalized ∧ t.valid = s.valid ∧ t.inputs = s.inputs ∧
        t.responses = s.responses ++ [.ok []] ∧
        ((s.pending ++ p).length < 64 → t.acc = s.acc ∧ t.pending = s.pending ++ p ∧ SameHidden s t)) ∧
    (s.valid = false ∨ s.finalized = true →
      exec (.process p) s = .next { s with responses := s.responses ++ [.error .invalidState] })

/-- R112, a rule the spec derives from R111. -/
def Obligations.ByteSerialProcessEqualsBlockwiseProcess : Prop :=
  ∀ (s : State) (p : ByteString), phaseOf s = .active → s.pending.length < 64 →
    ∃ t, exec (.process p) s = .next t ∧ SameDigest (p.foldl (fun u x => absorbByte x u) s) t

/-- R113. -/
def Obligations.ChunkingTheStreamDoesNotMatter : Prop :=
  ∀ (s : State) (chunks : List ByteString), phaseOf s = .active → s.pending.length < 64 →
    ∃ t u, execAll (chunks.map Instr.process) s = .next t ∧ exec (.process chunks.flatten) s = .next u ∧
      SameDigest t u

/-- R115; that nothing but acc and finalized is written is the spec's decision D9, the InvalidState in EMPTY its decision D7. -/
def Obligations.FinishPadsCompressesAndAnswersTheDigest : Prop :=
  ∀ s : State, encode .finish = .packet ⟨0x02#8, []⟩ ∧
    (s.valid = true ∧ s.finalized = false → s.pending.length < 64 →
      ∃ (t : State) (tail : ByteString), exec .finish s = .next t ∧
        tail = s.pending ++ [0x80#8] ++
          List.replicate (if s.pending.length < 56 then 55 - s.pending.length else 119 - s.pending.length) 0x00#8 ++
          bytesLE64 (8#64 * s.totalLength) ∧
        (tail.length = 64 ∨ tail.length = 128) ∧
        t.acc = (if tail.length = 128 then compress (compress s.acc (slice tail 0 64)) (slice tail 64 128)
          else compress s.acc (slice tail 0 64)) ∧
        t.finalized = true ∧ t.pending = s.pending ∧ t.totalLength = s.totalLength ∧ t.valid = s.valid ∧
        t.inputs = s.inputs ∧ t.responses = s.responses ++ [.ok (serialize t.acc)]) ∧
    (s.valid = false → exec .finish s = .next { s with responses := s.responses ++ [.error .invalidState] })

/-- R121, R59: the spec's decision D8 (92_eei_decisions.md: a claim on a second FINISH rests on it). -/
def Obligations.FinishAgainAnswersTheSameDigest : Prop :=
  (∀ s : State, phaseOf s = .final →
      exec .finish s = .next { s with responses := s.responses ++ [.ok (serialize s.acc)] }) ∧
    (∀ s t : State, phaseOf s = .active → exec .finish s = .next t →
      ∃ d, t.responses = s.responses ++ [.ok d] ∧
        exec .finish t = .next { t with responses := t.responses ++ [.ok d] })

/-- R116, R53. The bit length itself, modulo 2^64, is the spec's decision D11 (a statement of its own). -/
def Obligations.PaddingReachesFiftySixModuloSixtyFour : Prop :=
  ∀ (pending : ByteString) (n : Dword), pending.length < 64 →
    ∃ z : Nat, padTail pending n = pending ++ 0x80#8 :: (List.replicate z 0x00#8 ++ bytesLE64 (bitLength n)) ∧
      (pending.length + 1 + z) % 64 = 56 ∧ (∀ y < z, (pending.length + 1 + y) % 64 ≠ 56) ∧
      z = (if pending.length ≤ 55 then 55 - pending.length else 119 - pending.length) ∧
      9 ≤ 1 + z + 8 ∧ 1 + z + 8 ≤ 72 ∧
      (padTail pending n).length = (if pending.length ≤ 55 then 64 else 128) ∧
      ∀ m < 8, (padTail pending n)[(padTail pending n).length - 64 + 56 + m]? = some ((bitLength n).extractLsb' (8 * m) 8)

/-- R117. -/
def Obligations.TailIsOneBlockOrTwo : Prop :=
  ∀ (pending : ByteString) (n : Dword), pending.length < 64 →
    ((padTail pending n).length = 64 ↔ pending.length ≤ 55) ∧
    ((padTail pending n).length = 128 ↔ 56 ≤ pending.length) ∧
    (padTail pending n)[pending.length]? = some 0x80#8 ∧
    (56 ≤ pending.length →
      slice (padTail pending n) 0 64 = pending ++ [0x80#8] ++ List.replicate (63 - pending.length) 0x00#8 ∧
      slice (padTail pending n) 64 128 = List.replicate 56 0x00#8 ++ bytesLE64 (bitLength n)) ∧
    ∀ s t : State, s.pending = pending → s.totalLength = n → phaseOf s = .active → exec .finish s = .next t →
      t.acc = (if pending.length ≤ 55 then compress s.acc (padTail pending n)
        else compress (compress s.acc (slice (padTail pending n) 0 64)) (slice (padTail pending n) 64 128))

/-- R118, the spec's decision D11. -/
def Obligations.BitLengthIsEightTimesTheByteCount : Prop :=
  ∀ n : Dword, (bitLength n).toNat = (8 * n.toNat) % 2 ^ 64 ∧
    (bitLength n).extractLsb' 3 61 = n.extractLsb' 0 61 ∧ (bitLength n).extractLsb' 0 3 = 0#3

/-- R119, R54. -/
def Obligations.SerializeIsLittleEndianInOrderABCD : Prop :=
  (∀ acc : Quad, (serialize acc).length = 16 ∧
      serialize acc = bytesLE32 acc.a ++ bytesLE32 acc.b ++ bytesLE32 acc.c ++ bytesLE32 acc.d ∧
      ∀ m < 4, (serialize acc)[m]? = some (acc.a.extractLsb' (8 * m) 8) ∧
        (serialize acc)[4 + m]? = some (acc.b.extractLsb' (8 * m) 8) ∧
        (serialize acc)[8 + m]? = some (acc.c.extractLsb' (8 * m) 8) ∧
        (serialize acc)[12 + m]? = some (acc.d.extractLsb' (8 * m) 8)) ∧
    serialize ⟨0xd98c1dd4#32, 0x04b2008f#32, 0x980980e9#32, 0x7e42f8ec#32⟩ =
      [0xd4#8, 0x1d#8, 0x8c#8, 0xd9#8, 0x8f#8, 0x00#8, 0xb2#8, 0x04#8, 0xe9#8, 0x80#8, 0x09#8, 0x98#8, 0xec#8, 0xf8#8,
        0x42#8, 0x7e#8]

/-- R124 in its closed form (derived by the spec) and R122 (decision D10: the engine's own state is untouched); the bit length
modulo 2^64 is decision D11 (notes/assumptions/13.md, DEDUCED). -/
def Obligations.OneshotAnswersTheDigestOfThePaddedMessage : Prop :=
  ∀ (p : ByteString) (s : State), ∃ (q : Nat) (padded : ByteString),
    q = p.length / 64 + (if p.length % 64 ≤ 55 then 1 else 2) ∧
    padded = p ++ [0x80#8] ++
      List.replicate (if p.length % 64 < 56 then 55 - p.length % 64 else 119 - p.length % 64) 0x00#8 ++
      bytesLE64 (BitVec.ofNat 64 (8 * p.length)) ∧
    padded.length = 64 * q ∧
    exec (.oneshot p) s = .next
      { s with
        responses := s.responses ++
          [.ok (serialize (chain q padded ⟨0x67452301#32, 0xefcdab89#32, 0x98badcfe#32, 0x10325476#32⟩))] }

/-- R123, a rule the spec derives; that ONESHOT leaves the engine untouched is its decision D10 (notes/assumptions/13.md,
DEDUCED). -/
def Obligations.OneshotEqualsEveryChunkedStream : Prop :=
  ∀ (s s' : State) (chunks : List ByteString), ∃ (t : State) (d : ByteString),
    execAll (.init :: (chunks.map Instr.process ++ [.finish])) s = .next t ∧
    t.responses = s.responses ++ (.ok [] :: chunks.map (fun _ => .ok [])) ++ [.ok d] ∧
    exec (.oneshot chunks.flatten) s' = .next { s' with responses := s'.responses ++ [.ok d] }

/-- R52. -/
def Obligations.MessageWordsAreLittleEndian : Prop :=
  ∀ block : ByteString, block.length = 64 →
    (messageWords block).length = 16 ∧
      ∀ j < 16, ∀ m < 4, ∃ (x : Word) (b : Byte),
        (messageWords block)[j]? = some x ∧ block[4 * j + m]? = some b ∧ x.extractLsb' (8 * m) 8 = b

/-- The first stage (R145, with the step of R143, R144); rows: step index, step, g, s, K. The table's numbers and the step's exact
form are marked by the spec as general knowledge (notes/assumptions/12.md, PRESUMED). -/
def Obligations.Stage1StepsComputeTheirTableRows : Prop :=
  ∀ (s : State), ∀ row ∈ ([
     (0, .step0, 0, 7, 0xd76aa478#32), (1, .step1, 1, 12, 0xe8c7b756#32),
     (2, .step2, 2, 17, 0x242070db#32), (3, .step3, 3, 22, 0xc1bdceee#32),
     (4, .step4, 4, 7, 0xf57c0faf#32), (5, .step5, 5, 12, 0x4787c62a#32),
     (6, .step6, 6, 17, 0xa8304613#32), (7, .step7, 7, 22, 0xfd469501#32),
     (8, .step8, 8, 7, 0x698098d8#32), (9, .step9, 9, 12, 0x8b44f7af#32),
     (10, .step10, 10, 17, 0xffff5bb1#32), (11, .step11, 11, 22, 0x895cd7be#32),
     (12, .step12, 12, 7, 0x6b901122#32), (13, .step13, 13, 12, 0xfd987193#32),
     (14, .step14, 14, 17, 0xa679438e#32), (15, .step15, 15, 22, 0x49b40821#32)] :
      List (Nat × Instr × Nat × Nat × Word)),
    ∃ j : Fin 64, (row.1 < 63 → j.val = row.1 + 1) ∧
      exec row.2.1 s = .next
        { s with
          w := rowStep funF row.2.2.1 row.2.2.2.1 row.2.2.2.2 s.w (messageWords s.blk)
          stepIndex := j }

/-- The second stage (R146, with the step of R143, R144); rows: step index, step, g, s, K. The table's numbers and the step's
exact form are marked by the spec as general knowledge (notes/assumptions/12.md, PRESUMED). -/
def Obligations.Stage2StepsComputeTheirTableRows : Prop :=
  ∀ (s : State), ∀ row ∈ ([
     (16, .step16, 1, 5, 0xf61e2562#32), (17, .step17, 6, 9, 0xc040b340#32),
     (18, .step18, 11, 14, 0x265e5a51#32), (19, .step19, 0, 20, 0xe9b6c7aa#32),
     (20, .step20, 5, 5, 0xd62f105d#32), (21, .step21, 10, 9, 0x02441453#32),
     (22, .step22, 15, 14, 0xd8a1e681#32), (23, .step23, 4, 20, 0xe7d3fbc8#32),
     (24, .step24, 9, 5, 0x21e1cde6#32), (25, .step25, 14, 9, 0xc33707d6#32),
     (26, .step26, 3, 14, 0xf4d50d87#32), (27, .step27, 8, 20, 0x455a14ed#32),
     (28, .step28, 13, 5, 0xa9e3e905#32), (29, .step29, 2, 9, 0xfcefa3f8#32),
     (30, .step30, 7, 14, 0x676f02d9#32), (31, .step31, 12, 20, 0x8d2a4c8a#32)] :
      List (Nat × Instr × Nat × Nat × Word)),
    ∃ j : Fin 64, (row.1 < 63 → j.val = row.1 + 1) ∧
      exec row.2.1 s = .next
        { s with
          w := rowStep funG row.2.2.1 row.2.2.2.1 row.2.2.2.2 s.w (messageWords s.blk)
          stepIndex := j }

/-- The third stage (R147, with the step of R143, R144); rows: step index, step, g, s, K. The table's numbers and the step's exact
form are marked by the spec as general knowledge (notes/assumptions/12.md, PRESUMED). -/
def Obligations.Stage3StepsComputeTheirTableRows : Prop :=
  ∀ (s : State), ∀ row ∈ ([
     (32, .step32, 5, 4, 0xfffa3942#32), (33, .step33, 8, 11, 0x8771f681#32),
     (34, .step34, 11, 16, 0x6d9d6122#32), (35, .step35, 14, 23, 0xfde5380c#32),
     (36, .step36, 1, 4, 0xa4beea44#32), (37, .step37, 4, 11, 0x4bdecfa9#32),
     (38, .step38, 7, 16, 0xf6bb4b60#32), (39, .step39, 10, 23, 0xbebfbc70#32),
     (40, .step40, 13, 4, 0x289b7ec6#32), (41, .step41, 0, 11, 0xeaa127fa#32),
     (42, .step42, 3, 16, 0xd4ef3085#32), (43, .step43, 6, 23, 0x04881d05#32),
     (44, .step44, 9, 4, 0xd9d4d039#32), (45, .step45, 12, 11, 0xe6db99e5#32),
     (46, .step46, 15, 16, 0x1fa27cf8#32), (47, .step47, 2, 23, 0xc4ac5665#32)] :
      List (Nat × Instr × Nat × Nat × Word)),
    ∃ j : Fin 64, (row.1 < 63 → j.val = row.1 + 1) ∧
      exec row.2.1 s = .next
        { s with
          w := rowStep funH row.2.2.1 row.2.2.2.1 row.2.2.2.2 s.w (messageWords s.blk)
          stepIndex := j }

/-- The fourth stage (R148, with the step of R143, R144); rows: step index, step, g, s, K. The table's numbers and the step's
exact form are marked by the spec as general knowledge (notes/assumptions/12.md, PRESUMED). -/
def Obligations.Stage4StepsComputeTheirTableRows : Prop :=
  ∀ (s : State), ∀ row ∈ ([
     (48, .step48, 0, 6, 0xf4292244#32), (49, .step49, 7, 10, 0x432aff97#32),
     (50, .step50, 14, 15, 0xab9423a7#32), (51, .step51, 5, 21, 0xfc93a039#32),
     (52, .step52, 12, 6, 0x655b59c3#32), (53, .step53, 3, 10, 0x8f0ccc92#32),
     (54, .step54, 10, 15, 0xffeff47d#32), (55, .step55, 1, 21, 0x85845dd1#32),
     (56, .step56, 8, 6, 0x6fa87e4f#32), (57, .step57, 15, 10, 0xfe2ce6e0#32),
     (58, .step58, 6, 15, 0xa3014314#32), (59, .step59, 13, 21, 0x4e0811a1#32),
     (60, .step60, 4, 6, 0xf7537e82#32), (61, .step61, 11, 10, 0xbd3af235#32),
     (62, .step62, 2, 15, 0x2ad7d2bb#32), (63, .step63, 9, 21, 0xeb86d391#32)] :
      List (Nat × Instr × Nat × Nat × Word)),
    ∃ j : Fin 64, (row.1 < 63 → j.val = row.1 + 1) ∧
      exec row.2.1 s = .next
        { s with
          w := rowStep funI row.2.2.1 row.2.2.2.1 row.2.2.2.2 s.w (messageWords s.blk)
          stepIndex := j }

/-- R155. -/
def Obligations.StageFunctionsHaveTheirTruthTables : Prop :=
  ∀ (b c d : Word) (j : Nat), j < 32 →
    (funF b c d).getLsbD j = (if b.getLsbD j then c.getLsbD j else d.getLsbD j) ∧
    (funG b c d).getLsbD j = (if d.getLsbD j then b.getLsbD j else c.getLsbD j) ∧
    (funH b c d).getLsbD j = (b.getLsbD j ^^ c.getLsbD j ^^ d.getLsbD j) ∧
    (funI b c d).getLsbD j = (c.getLsbD j ^^ (b.getLsbD j || !d.getLsbD j))

/-- R154. The rotate amounts of the table are marked by the spec as general knowledge (G2, which names R154;
notes/assumptions/12.md, PRESUMED). -/
def Obligations.RotationsMoveBitsByTheTableAmounts : Prop :=
  (∀ a : Nat, (∃ i : Fin 64, (cwS (romWord i)).toNat = a) ↔
      a ∈ [4, 5, 6, 7, 9, 10, 11, 12, 14, 15, 16, 17, 20, 21, 22, 23]) ∧
    (∀ (x : Word) (r : Nat), 4 ≤ r → r ≤ 23 → ∀ j < 32, (rotl32 x r).getLsbD ((j + r) % 32) = x.getLsbD j) ∧
    rotl32 0x12345678#32 4 = 0x23456781#32 ∧ rotl32 0x12345678#32 7 = 0x1a2b3c09#32 ∧
    rotl32 0xdeadbeef#32 16 = 0xbeefdead#32 ∧ rotl32 0xffffffff#32 23 = 0xffffffff#32

/-- R156, with the pseudocode of R140 and the add-back of R152. The step index is the spec's decision D14
(notes/assumptions/13.md, DEDUCED), and that one machine step is one step micro-operation while a block compression is in flight
is the model's DESIGN CHOICE of notes/assumptions/5.md. -/
def Obligations.SixtyFourMachineStepsAreOneBlockCompression : Prop :=
  ∀ (block : ByteString) (s : State), NoResetNext s →
    (∀ n < 64, ∃ t, Host.Core.run Sys2Proof.core n (beginBlock block s) = .next t ∧ t.running = true ∧
      t.stepIndex.val = n ∧ t.blk = block ∧ t.acc = s.acc ∧ t.w = stepsQuad n s.acc (messageWords block)) ∧
    ∃ t, Host.Core.run Sys2Proof.core 64 (beginBlock block s) = .next t ∧ t.running = false ∧
      t.acc = compress s.acc block ∧ t.acc.a = s.acc.a + t.w.a ∧ t.acc.b = s.acc.b + t.w.b ∧
      t.acc.c = s.acc.c + t.w.c ∧ t.acc.d = s.acc.d + t.w.d ∧
      t.pending = s.pending ∧ t.totalLength = s.totalLength ∧ t.finalized = s.finalized ∧ t.valid = s.valid ∧
      t.inputs = s.inputs ∧ t.responses = s.responses

/-- R158. -/
def Obligations.RoleFixedFormComputesTheSame : Prop :=
  ∀ (r : Quad) (m : List Word), stepsFixed 64 r m = stepsQuad 64 r m

/-- R180, R182. -/
def Obligations.EncodeAnswersTwoLowercaseCharactersPerByte : Prop :=
  (∀ (d : ByteString) (s : State), d.length = 16 →
      encode (.encode d) = .packet ⟨0x04#8, d⟩ ∧
      ∃ out : ByteString, exec (.encode d) s = .next { s with responses := s.responses ++ [.ok out] } ∧ out.length = 32 ∧
        (∀ k < 16, ∃ x : Byte, d[k]? = some x ∧ out[2 * k]? = some (hexchar (BitVec.ofNat 4 (x.toNat / 16))) ∧
          out[2 * k + 1]? = some (hexchar (BitVec.ofNat 4 (x.toNat % 16)))) ∧
        ∀ c ∈ out, 0x30 ≤ c.toNat ∧ c.toNat ≤ 0x39 ∨ 0x61 ≤ c.toNat ∧ c.toNat ≤ 0x66) ∧
    (∀ d : ByteString, d.length ≠ 16 → decodePacket ⟨0x04#8, d⟩ = .error .payloadLength) ∧
    (∀ n : Fin 6, hexchar (BitVec.ofNat 4 (10 + n.val)) = BitVec.ofNat 8 (0x61 + n.val))

/-- R183, R184. -/
def Obligations.DecodeAnswersTheBytesOrMalformedInput : Prop :=
  ∀ (p : ByteString) (s : State), encode (.decode p) = .packet ⟨0x05#8, p⟩ ∧
    (p.length = 32 ∧ (∀ c ∈ p, HexCode c) →
      ∃ out : ByteString, exec (.decode p) s = .next { s with responses := s.responses ++ [.ok out] } ∧ out.length = 16 ∧
        ∀ k < 16, ∃ (hi lo : Byte) (h l : BitVec 4), p[2 * k]? = some hi ∧ p[2 * k + 1]? = some lo ∧
          hexval hi = some h ∧ hexval lo = some l ∧ out[k]? = some (BitVec.ofNat 8 (16 * h.toNat + l.toNat))) ∧
    (¬ (p.length = 32 ∧ ∀ c ∈ p, HexCode c) →
      exec (.decode p) s = .next { s with responses := s.responses ++ [.error .malformedInput] })

/-- R97, the spec's decision D12. -/
def Obligations.HexvalInvertsHexcharInBothCases : Prop :=
  (∀ c : Byte, (hexval c).isSome = true ↔ HexCode c) ∧
    (∀ n : Fin 10, hexval (BitVec.ofNat 8 (0x30 + n.val)) = some (BitVec.ofNat 4 n.val)) ∧
    (∀ n : Fin 6, hexval (BitVec.ofNat 8 (0x61 + n.val)) = some (BitVec.ofNat 4 (10 + n.val)) ∧
      hexval (BitVec.ofNat 8 (0x41 + n.val)) = some (BitVec.ofNat 4 (10 + n.val))) ∧
    (∀ n : BitVec 4, hexval (hexchar n) = some n)

/-- R185. -/
def Obligations.DecodeIgnoresTheCaseOfLetters : Prop :=
  (∀ (p : ByteString) (s : State), exec (.decode (p.map lowerChar)) s = exec (.decode p) s) ∧
    ∀ n : Fin 6, hexval (BitVec.ofNat 8 (0x41 + n.val)) = hexval (BitVec.ofNat 8 (0x61 + n.val)) ∧
      hexval (BitVec.ofNat 8 (0x61 + n.val)) = some (BitVec.ofNat 4 (10 + n.val))

/-- The two laws of R186 (its counting remarks are not stated). -/
def Obligations.CodecRoundTripsBothWays : Prop :=
  (∀ (d : ByteString) (s s' : State), d.length = 16 →
      ∃ out, exec (.encode d) s = .next { s with responses := s.responses ++ [.ok out] } ∧
        exec (.decode out) s' = .next { s' with responses := s'.responses ++ [.ok d] }) ∧
    (∀ (p : ByteString) (s s' : State), WellFormedSignature p →
      ∃ d, exec (.decode p) s = .next { s with responses := s.responses ++ [.ok d] } ∧
        exec (.encode d) s' = .next { s' with responses := s'.responses ++ [.ok (p.map lowerChar)] })

/-- R187; of ONESHOT it is R122, the spec's decision D10 (notes/assumptions/13.md, DEDUCED); of ENCODE with a payload that is not
16 bytes long it is the model's reading (notes/assumptions/10.md, DEDUCED). -/
def Obligations.CodecAndOneshotNeitherReadNorWriteTheEngine : Prop :=
  ∀ i : Instr, (∃ p, i = .encode p ∨ i = .decode p ∨ i = .oneshot p) →
    ∃ r : Response, r ≠ .error .invalidState ∧
      ∀ s : State, exec i s = .next { s with responses := s.responses ++ [r] }
end

