-- ==== Sys2Proof/Laws/Decode.lean ====
section
/-!
SUPPORT. What the packet decoder answers on each legal command byte, and the two fields that determine a command byte; later
proofs cite these and do not unfold the decoder.
-/
namespace Sys2Proof

@[simp] theorem decodePacket_init (p : ByteString) :
    decodePacket ⟨0x00#8, p⟩ = checkPayload (p.length == 0) .init := by simp [decodePacket, cmdRsvd, cmdOp]

@[simp] theorem decodePacket_process (p : ByteString) : decodePacket ⟨0x01#8, p⟩ = .ok (.process p) := by
  simp [decodePacket, cmdRsvd, cmdOp]

@[simp] theorem decodePacket_finish (p : ByteString) :
    decodePacket ⟨0x02#8, p⟩ = checkPayload (p.length == 0) .finish := by simp [decodePacket, cmdRsvd, cmdOp]

@[simp] theorem decodePacket_oneshot (p : ByteString) : decodePacket ⟨0x03#8, p⟩ = .ok (.oneshot p) := by
  simp [decodePacket, cmdRsvd, cmdOp]

@[simp] theorem decodePacket_encode (p : ByteString) :
    decodePacket ⟨0x04#8, p⟩ = checkPayload (p.length == 16) (.encode p) := by
  simp [decodePacket, cmdRsvd, cmdOp, Config.digestBytes]

@[simp] theorem decodePacket_decode (p : ByteString) : decodePacket ⟨0x05#8, p⟩ = .ok (.decode p) := by
  simp [decodePacket, cmdRsvd, cmdOp]

/-- A command byte is its reserved bits followed by its opcode (30_encoding.md R82). -/
theorem cmd_eq_fields (c : Byte) : c = cmdRsvd c ++ cmdOp c := by revert c; decide +kernel

/-- What `checkPayload` accepts. -/
theorem checkPayload_eq_ok (b : Bool) (i j : Instr) : checkPayload b i = .ok j ↔ b = true ∧ j = i := by
  cases b <;> simp [checkPayload, eq_comm]

end Sys2Proof
end

