-- ==== Sys2Proof/Laws/State.lean ====
section
/-!
SUPPORT. One lemma per field per update of the state, so that no proof unfolds a record update.
-/
namespace Sys2Proof.Machine

/-! ### `respond` -/

@[simp] theorem respond_acc (r : Response) (s : State) : (respond r s).acc = s.acc := rfl
@[simp] theorem respond_pending (r : Response) (s : State) : (respond r s).pending = s.pending := rfl
@[simp] theorem respond_totalLength (r : Response) (s : State) : (respond r s).totalLength = s.totalLength := rfl
@[simp] theorem respond_finalized (r : Response) (s : State) : (respond r s).finalized = s.finalized := rfl
@[simp] theorem respond_valid (r : Response) (s : State) : (respond r s).valid = s.valid := rfl
@[simp] theorem respond_w (r : Response) (s : State) : (respond r s).w = s.w := rfl
@[simp] theorem respond_stepIndex (r : Response) (s : State) : (respond r s).stepIndex = s.stepIndex := rfl
@[simp] theorem respond_blk (r : Response) (s : State) : (respond r s).blk = s.blk := rfl
@[simp] theorem respond_running (r : Response) (s : State) : (respond r s).running = s.running := rfl
@[simp] theorem respond_inputs (r : Response) (s : State) : (respond r s).inputs = s.inputs := rfl
@[simp] theorem respond_responses (r : Response) (s : State) : (respond r s).responses = s.responses ++ [r] := rfl

/-! ### `raiseErr` -/

@[simp] theorem raiseErr_acc (e : Err) (s : State) : (raiseErr e s).acc = s.acc := rfl
@[simp] theorem raiseErr_pending (e : Err) (s : State) : (raiseErr e s).pending = s.pending := rfl
@[simp] theorem raiseErr_totalLength (e : Err) (s : State) : (raiseErr e s).totalLength = s.totalLength := rfl
@[simp] theorem raiseErr_finalized (e : Err) (s : State) : (raiseErr e s).finalized = s.finalized := rfl
@[simp] theorem raiseErr_valid (e : Err) (s : State) : (raiseErr e s).valid = s.valid := rfl
@[simp] theorem raiseErr_w (e : Err) (s : State) : (raiseErr e s).w = s.w := rfl
@[simp] theorem raiseErr_stepIndex (e : Err) (s : State) : (raiseErr e s).stepIndex = s.stepIndex := rfl
@[simp] theorem raiseErr_blk (e : Err) (s : State) : (raiseErr e s).blk = s.blk := rfl
@[simp] theorem raiseErr_running (e : Err) (s : State) : (raiseErr e s).running = s.running := rfl
@[simp] theorem raiseErr_inputs (e : Err) (s : State) : (raiseErr e s).inputs = s.inputs := rfl
@[simp] theorem raiseErr_responses (e : Err) (s : State) : (raiseErr e s).responses = s.responses ++ [.error e] := rfl

/-! ### `resetEvent` -/

@[simp] theorem resetEvent_acc (s : State) : (resetEvent s).acc = State.reset.acc := rfl
@[simp] theorem resetEvent_pending (s : State) : (resetEvent s).pending = State.reset.pending := rfl
@[simp] theorem resetEvent_totalLength (s : State) : (resetEvent s).totalLength = State.reset.totalLength := rfl
@[simp] theorem resetEvent_finalized (s : State) : (resetEvent s).finalized = State.reset.finalized := rfl
@[simp] theorem resetEvent_valid (s : State) : (resetEvent s).valid = State.reset.valid := rfl
@[simp] theorem resetEvent_w (s : State) : (resetEvent s).w = State.reset.w := rfl
@[simp] theorem resetEvent_stepIndex (s : State) : (resetEvent s).stepIndex = State.reset.stepIndex := rfl
@[simp] theorem resetEvent_blk (s : State) : (resetEvent s).blk = State.reset.blk := rfl
@[simp] theorem resetEvent_running (s : State) : (resetEvent s).running = State.reset.running := rfl
@[simp] theorem resetEvent_inputs (s : State) : (resetEvent s).inputs = s.inputs := rfl
@[simp] theorem resetEvent_responses (s : State) : (resetEvent s).responses = s.responses := rfl

/-! ### `beginBlock` -/

@[simp] theorem beginBlock_acc (block : ByteString) (s : State) : (beginBlock block s).acc = s.acc := rfl
@[simp] theorem beginBlock_pending (block : ByteString) (s : State) : (beginBlock block s).pending = s.pending := rfl
@[simp] theorem beginBlock_totalLength (block : ByteString) (s : State) : (beginBlock block s).totalLength = s.totalLength := rfl
@[simp] theorem beginBlock_finalized (block : ByteString) (s : State) : (beginBlock block s).finalized = s.finalized := rfl
@[simp] theorem beginBlock_valid (block : ByteString) (s : State) : (beginBlock block s).valid = s.valid := rfl
@[simp] theorem beginBlock_w (block : ByteString) (s : State) : (beginBlock block s).w = s.acc := rfl
@[simp] theorem beginBlock_stepIndex (block : ByteString) (s : State) : (beginBlock block s).stepIndex = 0 := rfl
@[simp] theorem beginBlock_blk (block : ByteString) (s : State) : (beginBlock block s).blk = block := rfl
@[simp] theorem beginBlock_running (block : ByteString) (s : State) : (beginBlock block s).running = true := rfl
@[simp] theorem beginBlock_inputs (block : ByteString) (s : State) : (beginBlock block s).inputs = s.inputs := rfl
@[simp] theorem beginBlock_responses (block : ByteString) (s : State) : (beginBlock block s).responses = s.responses := rfl

/-! ### `runStep` -/

@[simp] theorem runStep_acc (i : Fin 64) (s : State) : (runStep i s).acc = s.acc := rfl
@[simp] theorem runStep_pending (i : Fin 64) (s : State) : (runStep i s).pending = s.pending := rfl
@[simp] theorem runStep_totalLength (i : Fin 64) (s : State) : (runStep i s).totalLength = s.totalLength := rfl
@[simp] theorem runStep_finalized (i : Fin 64) (s : State) : (runStep i s).finalized = s.finalized := rfl
@[simp] theorem runStep_valid (i : Fin 64) (s : State) : (runStep i s).valid = s.valid := rfl
@[simp] theorem runStep_w (i : Fin 64) (s : State) : (runStep i s).w = stepQuad i s.w (messageWords s.blk) := rfl
@[simp] theorem runStep_stepIndex (i : Fin 64) (s : State) : (runStep i s).stepIndex = nextIndex i := rfl
@[simp] theorem runStep_blk (i : Fin 64) (s : State) : (runStep i s).blk = s.blk := rfl
@[simp] theorem runStep_running (i : Fin 64) (s : State) : (runStep i s).running = s.running := rfl
@[simp] theorem runStep_inputs (i : Fin 64) (s : State) : (runStep i s).inputs = s.inputs := rfl
@[simp] theorem runStep_responses (i : Fin 64) (s : State) : (runStep i s).responses = s.responses := rfl

/-! ### `addBack` -/

@[simp] theorem addBack_acc (s : State) : (addBack s).acc = addQuad s.acc s.w := rfl
@[simp] theorem addBack_pending (s : State) : (addBack s).pending = s.pending := rfl
@[simp] theorem addBack_totalLength (s : State) : (addBack s).totalLength = s.totalLength := rfl
@[simp] theorem addBack_finalized (s : State) : (addBack s).finalized = s.finalized := rfl
@[simp] theorem addBack_valid (s : State) : (addBack s).valid = s.valid := rfl
@[simp] theorem addBack_w (s : State) : (addBack s).w = s.w := rfl
@[simp] theorem addBack_stepIndex (s : State) : (addBack s).stepIndex = s.stepIndex := rfl
@[simp] theorem addBack_blk (s : State) : (addBack s).blk = s.blk := rfl
@[simp] theorem addBack_running (s : State) : (addBack s).running = false := rfl
@[simp] theorem addBack_inputs (s : State) : (addBack s).inputs = s.inputs := rfl
@[simp] theorem addBack_responses (s : State) : (addBack s).responses = s.responses := rfl

/-! ### `freshDigest` -/

@[simp] theorem freshDigest_acc (s : State) : (freshDigest s).acc = initQuad := rfl
@[simp] theorem freshDigest_pending (s : State) : (freshDigest s).pending = [] := rfl
@[simp] theorem freshDigest_totalLength (s : State) : (freshDigest s).totalLength = 0 := rfl
@[simp] theorem freshDigest_finalized (s : State) : (freshDigest s).finalized = false := rfl
@[simp] theorem freshDigest_valid (s : State) : (freshDigest s).valid = true := rfl
@[simp] theorem freshDigest_w (s : State) : (freshDigest s).w = s.w := rfl
@[simp] theorem freshDigest_stepIndex (s : State) : (freshDigest s).stepIndex = s.stepIndex := rfl
@[simp] theorem freshDigest_blk (s : State) : (freshDigest s).blk = s.blk := rfl
@[simp] theorem freshDigest_running (s : State) : (freshDigest s).running = s.running := rfl
@[simp] theorem freshDigest_inputs (s : State) : (freshDigest s).inputs = s.inputs := rfl
@[simp] theorem freshDigest_responses (s : State) : (freshDigest s).responses = s.responses := rfl

/-! ### The phase -/

theorem phaseOf_eq_empty (s : State) : phaseOf s = .empty ↔ s.valid = false := by
  unfold phaseOf; split <;> simp_all

theorem phaseOf_eq_active (s : State) : phaseOf s = .active ↔ s.valid = true ∧ s.finalized = false := by
  unfold phaseOf; split <;> simp_all

theorem phaseOf_eq_final (s : State) : phaseOf s = .final ↔ s.valid = true ∧ s.finalized = true := by
  unfold phaseOf; split <;> simp_all

@[simp] theorem phaseOf_respond (r : Response) (s : State) : phaseOf (respond r s) = phaseOf s := rfl

@[simp] theorem phaseOf_raiseErr (e : Err) (s : State) : phaseOf (raiseErr e s) = phaseOf s := rfl

/-- The phase depends on the two flags only (R27). -/
theorem phaseOf_congr (s t : State) (hv : t.valid = s.valid) (hf : t.finalized = s.finalized) : phaseOf t = phaseOf s := by
  unfold phaseOf; rw [hv, hf]

end Sys2Proof.Machine
end

