-- ==== Sys2Proof/Laws/Ops.lean ====
section
/-!
SUPPORT. One lemma per shared operation that says everything it does: the block compression in closed form, what several block
compressions, PROCESS and FINISH leave alone, and every case of the fetch. Later proofs cite these and unfold nothing.
-/
namespace Sys2Proof.Machine

/-! ### The 64 steps on the state -/

/-- The last of `n + 1` steps is step `n`. -/
theorem runSteps_succ (n : Nat) (s : State) : runSteps (n + 1) s = runStep (Fin.ofNat 64 n) (runSteps n s) := rfl

/-- The steps change only the working values and the step index. -/
theorem runSteps_eq (n : Nat) (s : State) :
    ∃ k, runSteps n s = { s with w := stepsQuad n s.w (messageWords s.blk), stepIndex := k } := by
  induction n with
  | zero => exact ⟨s.stepIndex, rfl⟩
  | succ n ih =>
    obtain ⟨k, hk⟩ := ih
    exact ⟨nextIndex (Fin.ofNat 64 n), by simp only [runSteps, hk, runStep, stepsQuad]⟩

@[simp] theorem runSteps_acc (n : Nat) (s : State) : (runSteps n s).acc = s.acc := by
  obtain ⟨k, hk⟩ := runSteps_eq n s; rw [hk]

@[simp] theorem runSteps_pending (n : Nat) (s : State) : (runSteps n s).pending = s.pending := by
  obtain ⟨k, hk⟩ := runSteps_eq n s; rw [hk]

@[simp] theorem runSteps_totalLength (n : Nat) (s : State) : (runSteps n s).totalLength = s.totalLength := by
  obtain ⟨k, hk⟩ := runSteps_eq n s; rw [hk]

@[simp] theorem runSteps_finalized (n : Nat) (s : State) : (runSteps n s).finalized = s.finalized := by
  obtain ⟨k, hk⟩ := runSteps_eq n s; rw [hk]

@[simp] theorem runSteps_valid (n : Nat) (s : State) : (runSteps n s).valid = s.valid := by
  obtain ⟨k, hk⟩ := runSteps_eq n s; rw [hk]

@[simp] theorem runSteps_blk (n : Nat) (s : State) : (runSteps n s).blk = s.blk := by
  obtain ⟨k, hk⟩ := runSteps_eq n s; rw [hk]

@[simp] theorem runSteps_running (n : Nat) (s : State) : (runSteps n s).running = s.running := by
  obtain ⟨k, hk⟩ := runSteps_eq n s; rw [hk]

@[simp] theorem runSteps_inputs (n : Nat) (s : State) : (runSteps n s).inputs = s.inputs := by
  obtain ⟨k, hk⟩ := runSteps_eq n s; rw [hk]

@[simp] theorem runSteps_responses (n : Nat) (s : State) : (runSteps n s).responses = s.responses := by
  obtain ⟨k, hk⟩ := runSteps_eq n s; rw [hk]

@[simp] theorem runSteps_w (n : Nat) (s : State) : (runSteps n s).w = stepsQuad n s.w (messageWords s.blk) := by
  obtain ⟨k, hk⟩ := runSteps_eq n s; rw [hk]

/-- The step index after at least one step. -/
theorem runSteps_stepIndex (n : Nat) (s : State) :
    (runSteps (n + 1) s).stepIndex = nextIndex (Fin.ofNat 64 n) := rfl

/-- One block compression in closed form: the accumulators become `Compress(acc, block)` (R140), the hidden state holds what the
datapath last computed, and nothing else changes. -/
theorem compressBlock_eq (block : ByteString) (s : State) :
    compressBlock block s =
      { s with
        acc := compress s.acc block, w := stepsQuad 64 s.acc (messageWords block), stepIndex := 63, blk := block
        running := false } := by
  obtain ⟨k, hk⟩ := runSteps_eq 64 (beginBlock block s)
  have hi : (runSteps 64 (beginBlock block s)).stepIndex = 63 := runSteps_stepIndex 63 _
  rw [hk] at hi
  rw [compressBlock, hk, compress]
  exact hi ▸ rfl

@[simp] theorem compressBlock_acc (block : ByteString) (s : State) :
    (compressBlock block s).acc = compress s.acc block := by rw [compressBlock_eq]

@[simp] theorem compressBlock_pending (block : ByteString) (s : State) :
    (compressBlock block s).pending = s.pending := by rw [compressBlock_eq]

@[simp] theorem compressBlock_totalLength (block : ByteString) (s : State) :
    (compressBlock block s).totalLength = s.totalLength := by rw [compressBlock_eq]

@[simp] theorem compressBlock_finalized (block : ByteString) (s : State) :
    (compressBlock block s).finalized = s.finalized := by rw [compressBlock_eq]

@[simp] theorem compressBlock_valid (block : ByteString) (s : State) :
    (compressBlock block s).valid = s.valid := by rw [compressBlock_eq]

@[simp] theorem compressBlock_w (block : ByteString) (s : State) :
    (compressBlock block s).w = stepsQuad 64 s.acc (messageWords block) := by rw [compressBlock_eq]

@[simp] theorem compressBlock_stepIndex (block : ByteString) (s : State) :
    (compressBlock block s).stepIndex = 63 := by rw [compressBlock_eq]

@[simp] theorem compressBlock_blk (block : ByteString) (s : State) :
    (compressBlock block s).blk = block := by rw [compressBlock_eq]

@[simp] theorem compressBlock_running (block : ByteString) (s : State) :
    (compressBlock block s).running = false := by rw [compressBlock_eq]

@[simp] theorem compressBlock_inputs (block : ByteString) (s : State) :
    (compressBlock block s).inputs = s.inputs := by rw [compressBlock_eq]

@[simp] theorem compressBlock_responses (block : ByteString) (s : State) :
    (compressBlock block s).responses = s.responses := by rw [compressBlock_eq]

/-! ### Several block compressions -/

@[simp] theorem compressBlocks_pending (n : Nat) (buf : ByteString) (s : State) :
    (compressBlocks n buf s).pending = s.pending := by
  induction n with
  | zero => rfl
  | succ n ih => simp only [compressBlocks, ih, compressBlock_pending]

@[simp] theorem compressBlocks_totalLength (n : Nat) (buf : ByteString) (s : State) :
    (compressBlocks n buf s).totalLength = s.totalLength := by
  induction n with
  | zero => rfl
  | succ n ih => simp only [compressBlocks, ih, compressBlock_totalLength]

@[simp] theorem compressBlocks_finalized (n : Nat) (buf : ByteString) (s : State) :
    (compressBlocks n buf s).finalized = s.finalized := by
  induction n with
  | zero => rfl
  | succ n ih => simp only [compressBlocks, ih, compressBlock_finalized]

@[simp] theorem compressBlocks_valid (n : Nat) (buf : ByteString) (s : State) :
    (compressBlocks n buf s).valid = s.valid := by
  induction n with
  | zero => rfl
  | succ n ih => simp only [compressBlocks, ih, compressBlock_valid]

@[simp] theorem compressBlocks_inputs (n : Nat) (buf : ByteString) (s : State) :
    (compressBlocks n buf s).inputs = s.inputs := by
  induction n with
  | zero => rfl
  | succ n ih => simp only [compressBlocks, ih, compressBlock_inputs]

@[simp] theorem compressBlocks_responses (n : Nat) (buf : ByteString) (s : State) :
    (compressBlocks n buf s).responses = s.responses := by
  induction n with
  | zero => rfl
  | succ n ih => simp only [compressBlocks, ih, compressBlock_responses]

/-- No block compression is in flight afterwards, if none was before (10_state.md R32). -/
theorem compressBlocks_running (n : Nat) (buf : ByteString) (s : State) (h : s.running = false) :
    (compressBlocks n buf s).running = false := by
  cases n with
  | zero => exact h
  | succ n => exact compressBlock_running _ _

/-- The accumulators after several block compressions: the chain of `Compress` over the blocks in stream order (R63, R159). -/
theorem compressBlocks_acc (n : Nat) (buf : ByteString) (s : State) :
    (compressBlocks n buf s).acc =
      (List.range n).foldl (fun h j => compress h (slice buf (64 * j) (64 * j + 64))) s.acc := by
  induction n with
  | zero => rfl
  | succ n ih => rw [compressBlocks, compressBlock_acc, ih, List.range_succ, List.foldl_append]; rfl

/-- Block compressions keep the length of the block in flight at 64, if there are enough bytes for them. -/
theorem compressBlocks_blk_length (n : Nat) (buf : ByteString) (s : State)
    (hs : s.blk.length = 64) (hb : 64 * n ≤ buf.length) : (compressBlocks n buf s).blk.length = 64 := by
  cases n with
  | zero => exact hs
  | succ n =>
    simp only [compressBlocks, compressBlock_blk, slice, List.length_take, List.length_drop, Config.blockBytes]
    omega

/-! ### PROCESS and FINISH -/

@[simp] theorem absorb_finalized (p : ByteString) (s : State) : (absorb p s).finalized = s.finalized := by simp [absorb]

@[simp] theorem absorb_valid (p : ByteString) (s : State) : (absorb p s).valid = s.valid := by simp [absorb]

@[simp] theorem absorb_inputs (p : ByteString) (s : State) : (absorb p s).inputs = s.inputs := by simp [absorb]

@[simp] theorem absorb_responses (p : ByteString) (s : State) : (absorb p s).responses = s.responses := by simp [absorb]

@[simp] theorem absorb_totalLength (p : ByteString) (s : State) :
    (absorb p s).totalLength = add64 s.totalLength (BitVec.ofNat 64 p.length) := by simp [absorb]

/-- After PROCESS the pending bytes are those after the last complete block: fewer than 64 (R111). -/
theorem absorb_running (p : ByteString) (s : State) (h : s.running = false) : (absorb p s).running = false :=
  compressBlocks_running _ _ s h

theorem absorb_pending_length (p : ByteString) (s : State) :
    (absorb p s).pending.length = (s.pending.length + p.length) % 64 := by
  simp only [absorb, slice, Config.blockBytes, List.length_take, List.length_drop, List.length_append]
  omega

theorem absorb_blk_length (p : ByteString) (s : State) (hs : s.blk.length = 64) : (absorb p s).blk.length = 64 := by
  refine compressBlocks_blk_length _ _ s hs ?_
  simp only [Config.blockBytes]
  omega

@[simp] theorem finishDigest_pending (s : State) : (finishDigest s).pending = s.pending := by
  simp only [finishDigest]; split <;> simp

@[simp] theorem finishDigest_totalLength (s : State) : (finishDigest s).totalLength = s.totalLength := by
  simp only [finishDigest]; split <;> simp

@[simp] theorem finishDigest_valid (s : State) : (finishDigest s).valid = s.valid := by
  simp only [finishDigest]; split <;> simp

@[simp] theorem finishDigest_inputs (s : State) : (finishDigest s).inputs = s.inputs := by
  simp only [finishDigest]; split <;> simp

@[simp] theorem finishDigest_responses (s : State) : (finishDigest s).responses = s.responses := by
  simp only [finishDigest]; split <;> simp

@[simp] theorem finishDigest_finalized (s : State) : (finishDigest s).finalized = true := rfl

@[simp] theorem finishDigest_running (s : State) : (finishDigest s).running = false := by
  simp only [finishDigest]
  split <;> exact compressBlock_running _ _

theorem finishDigest_acc (s : State) :
    (finishDigest s).acc =
      if (padTail s.pending s.totalLength).length = 128 then
        compress (compress s.acc (slice (padTail s.pending s.totalLength) 0 64))
          (slice (padTail s.pending s.totalLength) 64 128)
      else compress s.acc (slice (padTail s.pending s.totalLength) 0 64) := by
  simp only [finishDigest]; split <;> simp

@[simp] theorem bytesLE64_length (x : Dword) : (bytesLE64 x).length = 8 := rfl

/-- The tail has 64 or 128 bytes (R116, R117). -/
theorem padTail_length (pending : ByteString) (n : Dword) (h : pending.length < 64) :
    (padTail pending n).length = if pending.length < 56 then 64 else 128 := by
  simp only [padTail, zeros, padZeros, List.length_append, List.length_replicate, bytesLE64_length, List.length_singleton]
  split <;> omega

theorem finishDigest_blk_length (s : State) (h : s.pending.length < 64) : (finishDigest s).blk.length = 64 := by
  have hl := padTail_length s.pending s.totalLength h
  simp only [finishDigest]
  split <;> simp only [compressBlock_blk, slice, List.length_take, List.length_drop] <;> split at hl <;> omega

/-! ### Fetch and decode -/

/-- Every entry of `ROM` decodes to the step it controls (R92, R94). -/
theorem decodeControlWord_rom (i : Fin 64) : decodeControlWord (romWord i) = .ok (stepInstr i) := by
  revert i; decide +kernel

/-- A step micro-operation does what `runStep` says (R143). -/
theorem exec_stepInstr (i : Fin 64) (s : State) : exec (stepInstr i) s = .next (runStep i s) := by
  fin_cases i <;> rfl

end Sys2Proof.Machine
end

