-- ==== Sys2Proof/Laws/Digest.lean ====
section
/-!
SUPPORT. The chain of block compressions over a byte string (how it starts, goes on, splits and depends on its bytes) and what
PROCESS does to the accumulators and the pending bytes in these terms; equality of DigestStates.
-/
namespace Sys2Proof.Machine

@[simp] theorem chain_zero (buf : ByteString) (h : Quad) : chain 0 buf h = h := by simp [chain]

theorem chain_succ (n : Nat) (buf : ByteString) (h : Quad) :
    chain (n + 1) buf h = compress (chain n buf h) (slice buf (64 * n) (64 * n + 64)) := by
  simp [chain, List.range_succ]

/-- The blocks after the first `m` are the blocks of the rest. -/
theorem chain_add (m n : Nat) (buf : ByteString) (h : Quad) :
    chain (m + n) buf h = chain n (buf.drop (64 * m)) (chain m buf h) := by
  induction n with
  | zero => simp
  | succ n ih =>
    have e1 : 64 * (m + n) = 64 * m + 64 * n := by omega
    have e2 : 64 * m + 64 * n + 64 - (64 * m + 64 * n) = 64 * n + 64 - 64 * n := by omega
    rw [← Nat.add_assoc, chain_succ, chain_succ, ih]
    unfold slice
    rw [List.drop_drop, e1, e2]

/-- The chain reads only the bytes of its blocks. -/
theorem chain_append (n : Nat) (buf rest : ByteString) (h : Quad) (hn : 64 * n ≤ buf.length) :
    chain n (buf ++ rest) h = chain n buf h := by
  induction n with
  | zero => simp
  | succ n ih =>
    have h1 : 64 * n ≤ buf.length := by omega
    have h2 : 64 * n + 64 - 64 * n ≤ (buf.drop (64 * n)).length := by rw [List.length_drop]; omega
    rw [chain_succ, chain_succ, ih h1]
    unfold slice
    rw [List.drop_append_of_le_length h1, List.take_append_of_le_length h2]

theorem absorb_acc (p : ByteString) (s : State) :
    (absorb p s).acc = chain ((s.pending ++ p).length / 64) (s.pending ++ p) s.acc := by
  simp only [absorb, compressBlocks_acc]; rfl

theorem absorb_pending (p : ByteString) (s : State) :
    (absorb p s).pending = (s.pending ++ p).drop (64 * ((s.pending ++ p).length / 64)) := by
  simp only [absorb, slice, Config.blockBytes]
  rw [List.take_of_length_le]
  simp

theorem SameDigest.refl (s : State) : SameDigest s s := ⟨rfl, rfl, rfl, rfl, rfl⟩

theorem SameDigest.symm {s t : State} (h : SameDigest s t) : SameDigest t s := by
  unfold SameDigest at *; simp_all

theorem SameDigest.trans {s t u : State} (h : SameDigest s t) (k : SameDigest t u) : SameDigest s u := by
  unfold SameDigest at *; simp_all

/-- Answering changes no DigestState. -/
@[simp] theorem sameDigest_respond_left (r : Response) (s t : State) : SameDigest (respond r s) t ↔ SameDigest s t := by
  simp [SameDigest]

@[simp] theorem sameDigest_respond_right (r : Response) (s t : State) : SameDigest s (respond r t) ↔ SameDigest s t := by
  simp [SameDigest]

/-- PROCESS depends on the DigestState only. -/
theorem SameDigest.absorb {s t : State} (p : ByteString) (h : SameDigest s t) :
    SameDigest (Machine.absorb p s) (Machine.absorb p t) := by
  obtain ⟨ha, hp, hl, hf, hv⟩ := h
  exact ⟨by rw [absorb_acc, absorb_acc, ha, hp], by rw [absorb_pending, absorb_pending, hp], by simp [hl], by simp [hf],
    by simp [hv]⟩

/-- FINISH depends on the DigestState only. -/
theorem SameDigest.finishDigest {s t : State} (h : SameDigest s t) :
    SameDigest (Machine.finishDigest s) (Machine.finishDigest t) := by
  obtain ⟨ha, hp, hl, hf, hv⟩ := h
  exact ⟨by rw [finishDigest_acc, finishDigest_acc, ha, hp, hl], by simp [hp], by simp [hl], rfl, by simp [hv]⟩

/-- The phase depends on the DigestState only. -/
theorem SameDigest.phaseOf {s t : State} (h : SameDigest s t) : Machine.phaseOf t = Machine.phaseOf s :=
  phaseOf_congr s t h.2.2.2.2 h.2.2.2.1

end Sys2Proof.Machine
end

