-- ==== Sys2Proof/Laws/Operands.lean ====
section
/-!
SUPPORT. What the byte conversions of Machine/Operands.lean give, bit by bit and byte by byte.
-/
namespace Sys2Proof.Machine

/-- The bits of `LE32`: bits 0 to 7 are the first byte's (R13). -/
theorem le32_getLsbD (b0 b1 b2 b3 : Byte) (i : Nat) :
    (le32 b0 b1 b2 b3).getLsbD i =
      if i < 8 then b0.getLsbD i else if i < 16 then b1.getLsbD (i - 8)
      else if i < 24 then b2.getLsbD (i - 16) else b3.getLsbD (i - 24) := by
  have e1 := BitVec.getLsbD_append (x := b3) (y := b2) (i := i - 8 - 8)
  have e2 := BitVec.getLsbD_append (x := b3 ++ b2) (y := b1) (i := i - 8)
  have e3 := BitVec.getLsbD_append (x := b3 ++ b2 ++ b1) (y := b0) (i := i)
  refine e3.trans ?_
  rw [e2, e1]
  simp only [Nat.sub_sub, Nat.reduceAdd]
  split_ifs <;> first | rfl | omega

/-- Byte `m` of `LE32` is its `m`-th argument (R13). -/
theorem le32_bytes (b0 b1 b2 b3 : Byte) : (le32 b0 b1 b2 b3).extractLsb' 0 8 = b0 ∧
    (le32 b0 b1 b2 b3).extractLsb' 8 8 = b1 ∧ (le32 b0 b1 b2 b3).extractLsb' 16 8 = b2 ∧
    (le32 b0 b1 b2 b3).extractLsb' 24 8 = b3 := by
  refine ⟨?_, ?_, ?_, ?_⟩ <;> 
    (apply BitVec.eq_of_getLsbD_eq; intro i hi; rw [BitVec.getLsbD_extractLsb', le32_getLsbD]
     simp only [hi, decide_true, Bool.true_and])
  · rw [if_pos (by omega)]; congr 1; omega
  · rw [if_neg (by omega), if_pos (by omega)]; congr 1; omega
  · rw [if_neg (by omega), if_neg (by omega), if_pos (by omega)]; congr 1; omega
  · rw [if_neg (by omega), if_neg (by omega), if_neg (by omega)]; congr 1; omega

/-- `bytesLE32` undoes `LE32` (R13). -/
theorem bytesLE32_le32 (b0 b1 b2 b3 : Byte) : bytesLE32 (le32 b0 b1 b2 b3) = [b0, b1, b2, b3] := by
  obtain ⟨h0, h1, h2, h3⟩ := le32_bytes b0 b1 b2 b3
  rw [bytesLE32, h0, h1, h2, h3]
/-- `Encode` gives two characters per byte (42_signature_codec.md R180). -/
theorem encodeHex_length (d : ByteString) : (encodeHex d).length = 2 * d.length := by
  induction d with
  | nil => rfl
  | cons x r ih => simp only [encodeHex, List.length_cons, ih]; omega

/-- `Serialize` gives 16 bytes (40_digest_engine.md R119). -/
@[simp] theorem serialize_length (acc : Quad) : (serialize acc).length = 16 := rfl

end Sys2Proof.Machine
end

