-- ==== Sys2Proof/Laws/PerInstr.lean ====
section
/-!
SUPPORT. Statements made once per constructor of `Instr`, about the instruction as syntax.
-/
namespace Sys2Proof.Laws

/-- Every entry of `ROM` has a rotate amount from 4 to 23. -/
theorem rom_rotate : ∀ i : Fin 64, 4 ≤ (cwS (romWord i)).toNat ∧ (cwS (romWord i)).toNat ≤ 23 := by decide +kernel

end Sys2Proof.Laws

namespace Sys2Proof.Laws.LegalEncoding

/-- The encoding of an instruction avoids the reserved space: a command byte has `c[7:3] = 0` and an opcode of at most 5
(30_encoding.md R82, R88); a control word has a rotate amount from 4 to 23 (R92). -/
def Statement (i : Instr) : Prop :=
  match encode i with
  | .packet p => cmdRsvd p.cmd = 0 ∧ (cmdOp p.cmd).toNat ≤ 5
  | .controlWord cw => 4 ≤ (cwS cw).toNat ∧ (cwS cw).toNat ≤ 23

theorem init : Statement .init := by simp only [Statement, Sys2Proof.encode]; decide

theorem process (payload : ByteString) : Statement (.process payload) := by simp only [Statement, Sys2Proof.encode]; decide

theorem finish : Statement .finish := by simp only [Statement, Sys2Proof.encode]; decide

theorem oneshot (payload : ByteString) : Statement (.oneshot payload) := by simp only [Statement, Sys2Proof.encode]; decide

theorem encode (payload : ByteString) : Statement (.encode payload) := by simp only [Statement, Sys2Proof.encode]; decide

theorem decode (payload : ByteString) : Statement (.decode payload) := by simp only [Statement, Sys2Proof.encode]; decide

theorem step0 : Statement .step0 := rom_rotate 0
theorem step1 : Statement .step1 := rom_rotate 1
theorem step2 : Statement .step2 := rom_rotate 2
theorem step3 : Statement .step3 := rom_rotate 3
theorem step4 : Statement .step4 := rom_rotate 4
theorem step5 : Statement .step5 := rom_rotate 5
theorem step6 : Statement .step6 := rom_rotate 6
theorem step7 : Statement .step7 := rom_rotate 7
theorem step8 : Statement .step8 := rom_rotate 8
theorem step9 : Statement .step9 := rom_rotate 9
theorem step10 : Statement .step10 := rom_rotate 10
theorem step11 : Statement .step11 := rom_rotate 11
theorem step12 : Statement .step12 := rom_rotate 12
theorem step13 : Statement .step13 := rom_rotate 13
theorem step14 : Statement .step14 := rom_rotate 14
theorem step15 : Statement .step15 := rom_rotate 15
theorem step16 : Statement .step16 := rom_rotate 16
theorem step17 : Statement .step17 := rom_rotate 17
theorem step18 : Statement .step18 := rom_rotate 18
theorem step19 : Statement .step19 := rom_rotate 19
theorem step20 : Statement .step20 := rom_rotate 20
theorem step21 : Statement .step21 := rom_rotate 21
theorem step22 : Statement .step22 := rom_rotate 22
theorem step23 : Statement .step23 := rom_rotate 23
theorem step24 : Statement .step24 := rom_rotate 24
theorem step25 : Statement .step25 := rom_rotate 25
theorem step26 : Statement .step26 := rom_rotate 26
theorem step27 : Statement .step27 := rom_rotate 27
theorem step28 : Statement .step28 := rom_rotate 28
theorem step29 : Statement .step29 := rom_rotate 29
theorem step30 : Statement .step30 := rom_rotate 30
theorem step31 : Statement .step31 := rom_rotate 31
theorem step32 : Statement .step32 := rom_rotate 32
theorem step33 : Statement .step33 := rom_rotate 33
theorem step34 : Statement .step34 := rom_rotate 34
theorem step35 : Statement .step35 := rom_rotate 35
theorem step36 : Statement .step36 := rom_rotate 36
theorem step37 : Statement .step37 := rom_rotate 37
theorem step38 : Statement .step38 := rom_rotate 38
theorem step39 : Statement .step39 := rom_rotate 39
theorem step40 : Statement .step40 := rom_rotate 40
theorem step41 : Statement .step41 := rom_rotate 41
theorem step42 : Statement .step42 := rom_rotate 42
theorem step43 : Statement .step43 := rom_rotate 43
theorem step44 : Statement .step44 := rom_rotate 44
theorem step45 : Statement .step45 := rom_rotate 45
theorem step46 : Statement .step46 := rom_rotate 46
theorem step47 : Statement .step47 := rom_rotate 47
theorem step48 : Statement .step48 := rom_rotate 48
theorem step49 : Statement .step49 := rom_rotate 49
theorem step50 : Statement .step50 := rom_rotate 50
theorem step51 : Statement .step51 := rom_rotate 51
theorem step52 : Statement .step52 := rom_rotate 52
theorem step53 : Statement .step53 := rom_rotate 53
theorem step54 : Statement .step54 := rom_rotate 54
theorem step55 : Statement .step55 := rom_rotate 55
theorem step56 : Statement .step56 := rom_rotate 56
theorem step57 : Statement .step57 := rom_rotate 57
theorem step58 : Statement .step58 := rom_rotate 58
theorem step59 : Statement .step59 := rom_rotate 59
theorem step60 : Statement .step60 := rom_rotate 60
theorem step61 : Statement .step61 := rom_rotate 61
theorem step62 : Statement .step62 := rom_rotate 62
theorem step63 : Statement .step63 := rom_rotate 63

end Sys2Proof.Laws.LegalEncoding
end

