-- ==== Sys2Proof/Laws/Run.lean ====
section
/-!
SUPPORT. Runs of the machine: the first and the last step of a run, and what the fetch answers in each situation.
-/
namespace Sys2Proof.Machine

/-! ### Runs, of any machine -/

/-- A run of `n + 1` steps whose first step goes on. -/
theorem run_succ_of_step (M : Host.Core) (n : Nat) (s t : M.State) (h : M.step s = .next t) :
    M.run (n + 1) s = M.run n t := by
  simp only [Host.Core.run, h]

/-- A run of `n + 1` steps is a run of `n` steps and one more. -/
theorem run_succ_last (M : Host.Core) (n : Nat) (s t : M.State) (h : M.run n s = .next t) :
    M.run (n + 1) s = M.step t := by
  induction n generalizing s with
  | zero =>
    simp only [Host.Core.run, Host.Outcome.next.injEq] at h ⊢
    subst h
    cases M.step s <;> rfl
  | succ n ih =>
    rw [Host.Core.run] at h
    cases he : M.step s with
    | next u =>
      rw [run_succ_of_step M (n + 1) s u he]
      exact ih u (by simpa only [he] using h)
    | fault f => simp only [he] at h; cases h
    | refused r => simp only [he] at h; cases h

/-- A run of this machine extended by one step that goes on. -/
theorem run_snoc (n : Nat) (s t u : State) (h : Host.Core.run Sys2Proof.core n s = .next t) (h1 : step t = .next u) :
    Host.Core.run Sys2Proof.core (n + 1) s = .next u :=
  (run_succ_last Sys2Proof.core n s t h).trans h1

/-! ### What is fetched -/

theorem fetch_reset (s : State) (cut : ByteString) (rest : List Input) (h : s.inputs = .reset cut :: rest) :
    fetch s = .reset rest := by simp [fetch, h]

theorem fetch_command (s : State) (p : Packet) (rest : List Input) (hr : s.running = false)
    (h : s.inputs = .packet p :: rest) : fetch s = .command p rest := by simp [fetch, h, hr]

theorem fetch_idle (s : State) (hr : s.running = false) (h : s.inputs = []) : fetch s = .idle := by simp [fetch, h, hr]

theorem fetch_control (s : State) (hr : s.running = true) (h : ∀ cut rest, s.inputs ≠ .reset cut :: rest) :
    fetch s = .control (romWord s.stepIndex) := by
  unfold fetch
  split
  · exact absurd ‹_› (h _ _)
  · simp [hr]
  · simp [hr]

/-- A control word is fetched only from `ROM` at the step index. -/
theorem fetch_control_rom (s : State) (cw : ControlWord) (h : fetch s = .control cw) :
    cw = romWord s.stepIndex ∧ s.running = true := by
  unfold fetch at h
  split at h <;> (try split at h) <;> simp_all

end Sys2Proof.Machine
end

