-- ==== Sys2Proof/Tests/Slice0.lean ====
section
/-!
SUPPORT. The model's own tests: ill-formed terms refused, words written out from the spec's encodings, single steps with expected
values from spec/95_test_vectors.md and spec/96_datapath_traces.md (never the model's own answers), and for every obligation with
hypotheses a concrete witness that meets them.
-/
namespace Sys2Proof.Tests

open Sys2Proof Sys2Proof.Machine

set_option Elab.async false

/-! ### Helpers -/

/-- The `n` bytes of the hex literal `v`, most significant first (30_encoding.md R95). -/
def hx (n v : Nat) : ByteString := (List.range n).reverse.map (fun k => BitVec.ofNat 8 (v / 256 ^ k))

/-- The byte string of `n` letters `"a"`. -/
def letters (n : Nat) : ByteString := List.replicate n 0x61#8

/-- The state of an outcome, if it is a next state. -/
def after (o : Host.Outcome State Fault Refusal) : Option State :=
  match o with
  | .next t => some t
  | .fault _ => none
  | .refused _ => none

/-- The last response of an outcome, as the bytes the host receives. -/
def answer (o : Host.Outcome State Fault Refusal) : Option ByteString :=
  match o with
  | .next t => t.responses.getLast?.map responseBytes
  | .fault _ => none
  | .refused _ => none

/-- A state in phase EMPTY, ACTIVE or FINAL with the given DigestState. -/
def mk (valid finalized : Bool) (acc : Quad) (pending : ByteString) (n : Dword) : State :=
  { State.reset with acc := acc, pending := pending, totalLength := n, finalized := finalized, valid := valid }

/-- `IV` (95_test_vectors.md). -/
def iv : Quad := ⟨0x67452301#32, 0xefcdab89#32, 0x98badcfe#32, 0x10325476#32⟩

/-- `H1` (95_test_vectors.md). -/
def h1 : Quad := ⟨0x89d4ff56#32, 0x125cd962#32, 0x69cade33#32, 0x0033e325#32⟩

/-- `H2` (95_test_vectors.md). -/
def h2 : Quad := ⟨0xe01b99d7#32, 0xa1e609c6#32, 0xfed21dea#32, 0xbe6b6b4f#32⟩

/-- Phase EMPTY, as after reset. -/
def empty : State := State.reset

/-- Phase ACTIVE, as after INIT. -/
def active : State := mk true false iv [] 0

/-- Phase ACTIVE after INIT and PROCESS of `n` letters `"a"`, for `n` below 64. -/
def activeAt (n : Nat) : State := mk true false iv (letters n) (BitVec.ofNat 64 n)

/-- Phase FINAL with the digest of the empty message. -/
def final : State := mk true true ⟨0xd98c1dd4#32, 0x04b2008f#32, 0x980980e9#32, 0x7e42f8ec#32⟩ [] 0

/-- `s` with one packet sent. -/
def sent (p : Packet) (s : State) : State := { s with inputs := [.packet p] }

/-- A state inside a block compression, at step `i`, with the working values `w`. -/
def inside (i : Fin 64) (w : Quad) (block : ByteString) : State :=
  { State.reset with w := w, blk := block, stepIndex := i, running := true }

/-- A block of zeros except the four bytes of word `g`, which are `x` little-endian. -/
def blockWith (g : Nat) (x : Word) : ByteString :=
  List.replicate (4 * g) 0#8 ++ bytesLE32 x ++ List.replicate (60 - 4 * g) 0#8

/-! ### Well-formedness (30_encoding.md R84) -/

theorem test_wellFormed_encode_16 : (Instr.encode (List.replicate 16 0#8)).WellFormed := by decide

theorem test_illFormed_encode_15 : ¬ (Instr.encode (List.replicate 15 0#8)).WellFormed := by decide

theorem test_illFormed_encode_17 : ¬ (Instr.encode (List.replicate 17 0#8)).WellFormed := by decide

theorem test_illFormed_encode_0 : ¬ (Instr.encode []).WellFormed := by decide

theorem test_wellFormed_others : (Instr.process []).WellFormed ∧ (Instr.decode [0#8]).WellFormed ∧ Instr.init.WellFormed := by decide

/-! ### Decoding: packets written out from 30_encoding.md section 7 and 95_test_vectors.md section 6 -/

theorem test_decode_init : decodePacket ⟨0b00000000#8, []⟩ = .ok .init := by rfl

theorem test_decode_process : decodePacket ⟨0b00000001#8, hx 3 0x616263⟩ = .ok (.process (hx 3 0x616263)) := by rfl

theorem test_decode_process_empty : decodePacket ⟨0b00000001#8, []⟩ = .ok (.process []) := by rfl

theorem test_decode_finish : decodePacket ⟨0b00000010#8, []⟩ = .ok .finish := by rfl

theorem test_decode_oneshot : decodePacket ⟨0b00000011#8, hx 1 0x61⟩ = .ok (.oneshot (hx 1 0x61)) := by rfl

theorem test_decode_encode : decodePacket ⟨0b00000100#8, List.replicate 16 0#8⟩ = .ok (.encode (List.replicate 16 0#8)) := by rfl

theorem test_decode_decode : decodePacket ⟨0b00000101#8, hx 2 0x7a7a⟩ = .ok (.decode (hx 2 0x7a7a)) := by rfl

theorem test_reject_opcodes : decodePacket ⟨0x06#8, []⟩ = .error .reservedOpcode ∧
    decodePacket ⟨0x07#8, []⟩ = .error .reservedOpcode := ⟨rfl, rfl⟩

theorem test_reject_reserved_bits : decodePacket ⟨0x08#8, []⟩ = .error .reservedBits ∧
    decodePacket ⟨0x81#8, hx 1 0x61⟩ = .error .reservedBits ∧ decodePacket ⟨0xff#8, []⟩ = .error .reservedBits := ⟨rfl, rfl, rfl⟩

theorem test_reject_lengths : decodePacket ⟨0x00#8, hx 1 0⟩ = .error .payloadLength ∧
    decodePacket ⟨0x02#8, hx 1 0⟩ = .error .payloadLength ∧
    decodePacket ⟨0x04#8, List.replicate 15 0#8⟩ = .error .payloadLength ∧
    decodePacket ⟨0x04#8, List.replicate 17 0#8⟩ = .error .payloadLength ∧
    decodePacket ⟨0x04#8, []⟩ = .error .payloadLength := ⟨rfl, rfl, rfl, rfl, rfl⟩

/-! ### Decoding: the 64 control words written out field by field (`fsel`, `g`, `s`, `K`) from 41_block_compression.md R145 to R148 -/

/-- A control word from its four fields (30_encoding.md R92), and the step it must decode to. -/
def wordOk (fsel g s : Nat) (k : Word) (i : Instr) : Bool :=
  match decodeControlWord (BitVec.ofNat 2 fsel ++ BitVec.ofNat 4 g ++ BitVec.ofNat 5 s ++ k) with
  | .ok j => i == j
  | .error _ => false

theorem test_decode_stage1 :
    wordOk 0 0 7 0xd76aa478#32 .step0 && wordOk 0 1 12 0xe8c7b756#32 .step1 &&
    wordOk 0 2 17 0x242070db#32 .step2 && wordOk 0 3 22 0xc1bdceee#32 .step3 &&
    wordOk 0 4 7 0xf57c0faf#32 .step4 && wordOk 0 5 12 0x4787c62a#32 .step5 &&
    wordOk 0 6 17 0xa8304613#32 .step6 && wordOk 0 7 22 0xfd469501#32 .step7 &&
    wordOk 0 8 7 0x698098d8#32 .step8 && wordOk 0 9 12 0x8b44f7af#32 .step9 &&
    wordOk 0 10 17 0xffff5bb1#32 .step10 && wordOk 0 11 22 0x895cd7be#32 .step11 &&
    wordOk 0 12 7 0x6b901122#32 .step12 && wordOk 0 13 12 0xfd987193#32 .step13 &&
    wordOk 0 14 17 0xa679438e#32 .step14 && wordOk 0 15 22 0x49b40821#32 .step15 := by decide +kernel

theorem test_decode_stage2 :
    wordOk 1 1 5 0xf61e2562#32 .step16 && wordOk 1 6 9 0xc040b340#32 .step17 &&
    wordOk 1 11 14 0x265e5a51#32 .step18 && wordOk 1 0 20 0xe9b6c7aa#32 .step19 &&
    wordOk 1 5 5 0xd62f105d#32 .step20 && wordOk 1 10 9 0x02441453#32 .step21 &&
    wordOk 1 15 14 0xd8a1e681#32 .step22 && wordOk 1 4 20 0xe7d3fbc8#32 .step23 &&
    wordOk 1 9 5 0x21e1cde6#32 .step24 && wordOk 1 14 9 0xc33707d6#32 .step25 &&
    wordOk 1 3 14 0xf4d50d87#32 .step26 && wordOk 1 8 20 0x455a14ed#32 .step27 &&
    wordOk 1 13 5 0xa9e3e905#32 .step28 && wordOk 1 2 9 0xfcefa3f8#32 .step29 &&
    wordOk 1 7 14 0x676f02d9#32 .step30 && wordOk 1 12 20 0x8d2a4c8a#32 .step31 := by decide +kernel

theorem test_decode_stage3 :
    wordOk 2 5 4 0xfffa3942#32 .step32 && wordOk 2 8 11 0x8771f681#32 .step33 &&
    wordOk 2 11 16 0x6d9d6122#32 .step34 && wordOk 2 14 23 0xfde5380c#32 .step35 &&
    wordOk 2 1 4 0xa4beea44#32 .step36 && wordOk 2 4 11 0x4bdecfa9#32 .step37 &&
    wordOk 2 7 16 0xf6bb4b60#32 .step38 && wordOk 2 10 23 0xbebfbc70#32 .step39 &&
    wordOk 2 13 4 0x289b7ec6#32 .step40 && wordOk 2 0 11 0xeaa127fa#32 .step41 &&
    wordOk 2 3 16 0xd4ef3085#32 .step42 && wordOk 2 6 23 0x04881d05#32 .step43 &&
    wordOk 2 9 4 0xd9d4d039#32 .step44 && wordOk 2 12 11 0xe6db99e5#32 .step45 &&
    wordOk 2 15 16 0x1fa27cf8#32 .step46 && wordOk 2 2 23 0xc4ac5665#32 .step47 := by decide +kernel

theorem test_decode_stage4 :
    wordOk 3 0 6 0xf4292244#32 .step48 && wordOk 3 7 10 0x432aff97#32 .step49 &&
    wordOk 3 14 15 0xab9423a7#32 .step50 && wordOk 3 5 21 0xfc93a039#32 .step51 &&
    wordOk 3 12 6 0x655b59c3#32 .step52 && wordOk 3 3 10 0x8f0ccc92#32 .step53 &&
    wordOk 3 10 15 0xffeff47d#32 .step54 && wordOk 3 1 21 0x85845dd1#32 .step55 &&
    wordOk 3 8 6 0x6fa87e4f#32 .step56 && wordOk 3 15 10 0xfe2ce6e0#32 .step57 &&
    wordOk 3 6 15 0xa3014314#32 .step58 && wordOk 3 13 21 0x4e0811a1#32 .step59 &&
    wordOk 3 4 6 0xf7537e82#32 .step60 && wordOk 3 11 10 0xbd3af235#32 .step61 &&
    wordOk 3 2 15 0x2ad7d2bb#32 .step62 && wordOk 3 9 21 0xeb86d391#32 .step63 := by decide +kernel

/-- A word one bit away from `ROM[0]` is none of the listed ones (30_encoding.md R94). -/
theorem test_reject_control_word : decodeControlWord 0x007d76aa479#43 = .error .unlistedControlWord := by rfl

/-- The word indices are the closed forms of the family, and a permutation of 0 to 15 in each stage (41_block_compression.md R149). -/
theorem test_rom_permutations :
    (List.range 16).map (fun i => (cwG (romWord (Fin.ofNat 64 (16 + i)))).toNat) = [1, 6, 11, 0, 5, 10, 15, 4, 9, 14, 3, 8, 13, 2, 7, 12] ∧
    (List.range 16).map (fun i => (cwG (romWord (Fin.ofNat 64 (32 + i)))).toNat) = [5, 8, 11, 14, 1, 4, 7, 10, 13, 0, 3, 6, 9, 12, 15, 2] ∧
    (List.range 16).map (fun i => (cwG (romWord (Fin.ofNat 64 (48 + i)))).toNat) = [0, 7, 14, 5, 12, 3, 10, 1, 8, 15, 6, 13, 4, 11, 2, 9] := by
  decide +kernel

/-! ### The opcode-table words, as the first instruction after reset -/

theorem test_table_word_decodes : decodeTableWord 8 0x00 = some .init ∧ decodeTableWord 8 0x01 = some (.process []) ∧
    decodeTableWord 8 0x02 = some .finish ∧ decodeTableWord 8 0x03 = some (.oneshot []) ∧
    decodeTableWord 8 0x04 = some (.encode (List.replicate 16 0#8)) ∧ decodeTableWord 8 0x05 = some (.decode []) ∧
    decodeTableWord 48 0x007d76aa478 = some .step0 ∧ decodeTableWord 48 0x735eb86d391 = some .step63 ∧
    decodeTableWord 8 0x06 = none := by decide +kernel

theorem test_fetch_word_init : answer (step (State.reset.withFetchWord 8 0x00)) = some [0x00#8] := by decide +kernel

theorem test_fetch_word_process : answer (step (State.reset.withFetchWord 8 0x01)) = some [0x01#8] := by decide +kernel

theorem test_fetch_word_oneshot :
    answer (step (State.reset.withFetchWord 8 0x03)) = some (hx 17 0x00d41d8cd98f00b204e9800998ecf8427e) := by decide +kernel

theorem test_fetch_word_encode : answer (step (State.reset.withFetchWord 8 0x04)) = some (0x00#8 :: List.replicate 32 0x30#8) := by
  decide +kernel

/-- STEP0 on zeros (96_datapath_traces.md section 1, second row). -/
theorem test_fetch_word_step0 : (after (step (State.reset.withFetchWord 48 0x007d76aa478))).map (fun t => (t.w, t.stepIndex)) =
    some (⟨0#32, 0xb5523c6b#32, 0#32, 0#32⟩, 1) := by decide +kernel

/-- STEP63 on zeros (96_datapath_traces.md section 1, last row); the block compression ends. -/
theorem test_fetch_word_step63 : (after (step (State.reset.withFetchWord 48 0x735eb86d391))).map (fun t => (t.w, t.running)) =
    some (⟨0#32, 0x721d70da#32, 0#32, 0#32⟩, false) := by decide +kernel

/-! ### The datapath (95_test_vectors.md sections 2.1, 2.2; 41_block_compression.md) -/

theorem test_rotl32 : rotl32 0x80000001#32 1 = 0x00000003#32 ∧ rotl32 0x00000001#32 31 = 0x80000000#32 ∧
    rotl32 0x12345678#32 4 = 0x23456781#32 ∧ rotl32 0x12345678#32 7 = 0x1a2b3c09#32 ∧
    rotl32 0xdeadbeef#32 16 = 0xbeefdead#32 ∧ rotl32 0xd76aa4f7#32 7 = 0xb5527beb#32 ∧
    rotl32 0x80000000#32 23 = 0x00400000#32 := by decide +kernel

theorem test_add32 : add32 0xffffffff#32 0x00000001#32 = 0x00000000#32 ∧ add32 0xffffffff#32 0xffffffff#32 = 0xfffffffe#32 ∧
    add32 0x80000000#32 0x80000000#32 = 0x00000000#32 ∧ add32 0x67452301#32 0x7246fad3#32 = 0xd98c1dd4#32 := by decide +kernel

/-- F, G, H, I on the row that holds the whole truth table, and on two further rows. -/
theorem test_stage_functions :
    (funF 0x0f0f0f0f#32 0x33333333#32 0x55555555#32, funG 0x0f0f0f0f#32 0x33333333#32 0x55555555#32,
      funH 0x0f0f0f0f#32 0x33333333#32 0x55555555#32, funI 0x0f0f0f0f#32 0x33333333#32 0x55555555#32) =
      (0x53535353#32, 0x27272727#32, 0x69696969#32, 0x9c9c9c9c#32) ∧
    (funF 0x9abcdef0#32 0x0fedcba9#32 0x87654321#32, funG 0x9abcdef0#32 0x0fedcba9#32 0x87654321#32,
      funH 0x9abcdef0#32 0x0fedcba9#32 0x87654321#32, funI 0x9abcdef0#32 0x0fedcba9#32 0x87654321#32) =
      (0x0fedcba1#32, 0x8aaccaa8#32, 0x12345678#32, 0xf5533557#32) ∧
    (funF 0x00000002#32 0x00000003#32 0x00000004#32, funG 0x00000002#32 0x00000003#32 0x00000004#32,
      funH 0x00000002#32 0x00000003#32 0x00000004#32, funI 0x00000002#32 0x00000003#32 0x00000004#32) =
      (0x00000006#32, 0x00000003#32, 0x00000005#32, 0xfffffff8#32) := by decide +kernel

/-- Word expansion of the block `00 01 02 ... 3f` (95_test_vectors.md section 2.4). -/
theorem test_message_words :
    let m := messageWords ((List.range 64).map (BitVec.ofNat 8))
    m.length = 16 ∧ m[0]? = some 0x03020100#32 ∧ m[1]? = some 0x07060504#32 ∧ m[15]? = some 0x3f3e3d3c#32 := by decide +kernel

/-! ### Single steps (96_datapath_traces.md section 1): step, working values, the word read, working values after -/

/-- Step `i` executed on `before`, with word `g` of the block equal to `x`, gives `out`. -/
def stepOk (i : Instr) (g : Nat) (x : Word) (before out : Quad) : Bool :=
  (after (exec i (inside 0 before (blockWith g x)))).map (fun t => t.w) == some out

theorem test_single_steps_1 :
    stepOk .step0 0 0x00000080#32 ⟨0x67452301#32, 0xefcdab89#32, 0x98badcfe#32, 0x10325476#32⟩ ⟨0x10325476#32, 0xa5202774#32, 0xefcdab89#32, 0x98badcfe#32⟩ &&
    stepOk .step0 0 0x00000000#32 ⟨0x00000000#32, 0x00000000#32, 0x00000000#32, 0x00000000#32⟩ ⟨0x00000000#32, 0xb5523c6b#32, 0x00000000#32, 0x00000000#32⟩ &&
    stepOk .step0 0 0xffffffff#32 ⟨0xffffffff#32, 0xffffffff#32, 0xffffffff#32, 0xffffffff#32⟩ ⟨0xffffffff#32, 0xb5523aea#32, 0xffffffff#32, 0xffffffff#32⟩ &&
    stepOk .step15 15 0x00000000#32 ⟨0x00000000#32, 0x00000000#32, 0x00000000#32, 0x00000000#32⟩ ⟨0x00000000#32, 0x08526d02#32, 0x00000000#32, 0x00000000#32⟩ &&
    stepOk .step16 1 0x00000000#32 ⟨0x00000000#32, 0x00000000#32, 0x00000000#32, 0x00000000#32⟩ ⟨0x00000000#32, 0xc3c4ac5e#32, 0x00000000#32, 0x00000000#32⟩ &&
    stepOk .step16 1 0xffffffff#32 ⟨0xffffffff#32, 0xffffffff#32, 0xffffffff#32, 0xffffffff#32⟩ ⟨0xffffffff#32, 0xc3c4abfd#32, 0xffffffff#32, 0xffffffff#32⟩ &&
    stepOk .step19 0 0xdeadbeef#32 ⟨0x00000001#32, 0x00000002#32, 0x00000003#32, 0x00000004#32⟩ ⟨0x00000004#32, 0x69dc864a#32, 0x00000002#32, 0x00000003#32⟩ &&
    stepOk .step31 12 0x00000000#32 ⟨0x00000000#32, 0x00000000#32, 0x00000000#32, 0x00000000#32⟩ ⟨0x00000000#32, 0xc8a8d2a4#32, 0x00000000#32, 0x00000000#32⟩ := by decide +kernel

theorem test_single_steps_2 :
    stepOk .step32 5 0x00000000#32 ⟨0x00000000#32, 0x00000000#32, 0x00000000#32, 0x00000000#32⟩ ⟨0x00000000#32, 0xffa3942f#32, 0x00000000#32, 0x00000000#32⟩ &&
    stepOk .step32 5 0xffffffff#32 ⟨0xffffffff#32, 0xffffffff#32, 0xffffffff#32, 0xffffffff#32⟩ ⟨0xffffffff#32, 0xffa393fe#32, 0xffffffff#32, 0xffffffff#32⟩ &&
    stepOk .step35 14 0x00000001#32 ⟨0x80000000#32, 0x80000000#32, 0x80000000#32, 0x80000000#32⟩ ⟨0x80000000#32, 0x86fef29c#32, 0x80000000#32, 0x80000000#32⟩ &&
    stepOk .step47 2 0x00000000#32 ⟨0x00000000#32, 0x00000000#32, 0x00000000#32, 0x00000000#32⟩ ⟨0x00000000#32, 0x32e2562b#32, 0x00000000#32, 0x00000000#32⟩ &&
    stepOk .step48 0 0x00000000#32 ⟨0x00000000#32, 0x00000000#32, 0x00000000#32, 0x00000000#32⟩ ⟨0x00000000#32, 0x0a4890fd#32, 0x00000000#32, 0x00000000#32⟩ &&
    stepOk .step48 0 0xffffffff#32 ⟨0xffffffff#32, 0xffffffff#32, 0xffffffff#32, 0xffffffff#32⟩ ⟨0xffffffff#32, 0x0a4890bc#32, 0xffffffff#32, 0xffffffff#32⟩ &&
    stepOk .step63 9 0xaaaaaaaa#32 ⟨0x12345678#32, 0x9abcdef0#32, 0x0fedcba9#32, 0x87654321#32⟩ ⟨0x87654321#32, 0xdc109611#32, 0x9abcdef0#32, 0x0fedcba9#32⟩ &&
    stepOk .step63 9 0x00000000#32 ⟨0x00000000#32, 0x00000000#32, 0x00000000#32, 0x00000000#32⟩ ⟨0x00000000#32, 0x721d70da#32, 0x00000000#32, 0x00000000#32⟩ := by decide +kernel

/-- The working values before step 0 and after each of the steps of the one block of the empty message
(96_datapath_traces.md section 2). -/
def traceA : List Quad := [iv,
  ⟨0x10325476#32, 0xa5202774#32, 0xefcdab89#32, 0x98badcfe#32⟩,
  ⟨0x98badcfe#32, 0xf59592dd#32, 0xa5202774#32, 0xefcdab89#32⟩,
  ⟨0xefcdab89#32, 0xe7f06b23#32, 0xf59592dd#32, 0xa5202774#32⟩,
  ⟨0xa5202774#32, 0x1b163203#32, 0xe7f06b23#32, 0xf59592dd#32⟩,
  ⟨0xf59592dd#32, 0x32033344#32, 0x1b163203#32, 0xe7f06b23#32⟩,
  ⟨0xe7f06b23#32, 0x2f35d494#32, 0x32033344#32, 0x1b163203#32⟩,
  ⟨0x1b163203#32, 0xf5b158db#32, 0x2f35d494#32, 0x32033344#32⟩,
  ⟨0x32033344#32, 0x9bc13ce9#32, 0xf5b158db#32, 0x2f35d494#32⟩,
  ⟨0x2f35d494#32, 0x3893b991#32, 0x9bc13ce9#32, 0xf5b158db#32⟩,
  ⟨0xf5b158db#32, 0xfce4a312#32, 0x3893b991#32, 0x9bc13ce9#32⟩,
  ⟨0x9bc13ce9#32, 0xe1ef0576#32, 0xfce4a312#32, 0x3893b991#32⟩,
  ⟨0x3893b991#32, 0x70768a29#32, 0xe1ef0576#32, 0xfce4a312#32⟩,
  ⟨0xfce4a312#32, 0xf56c7cf1#32, 0x70768a29#32, 0xe1ef0576#32⟩,
  ⟨0xe1ef0576#32, 0x374943a7#32, 0xf56c7cf1#32, 0x70768a29#32⟩,
  ⟨0x70768a29#32, 0x5aa53f75#32, 0x374943a7#32, 0xf56c7cf1#32⟩,
  ⟨0xf56c7cf1#32, 0xd6819c6a#32, 0x5aa53f75#32, 0x374943a7#32⟩,
  ⟨0x374943a7#32, 0x1c7d7513#32, 0xd6819c6a#32, 0x5aa53f75#32⟩,
  ⟨0x5aa53f75#32, 0x7bd57a3a#32, 0x1c7d7513#32, 0xd6819c6a#32⟩,
  ⟨0xd6819c6a#32, 0xc095f13a#32, 0x7bd57a3a#32, 0x1c7d7513#32⟩,
  ⟨0x1c7d7513#32, 0xbd782e17#32, 0xc095f13a#32, 0x7bd57a3a#32⟩,
  ⟨0x7bd57a3a#32, 0x3d1e3e6c#32, 0xbd782e17#32, 0xc095f13a#32⟩,
  ⟨0xc095f13a#32, 0x68b7b3e3#32, 0x3d1e3e6c#32, 0xbd782e17#32⟩,
  ⟨0xbd782e17#32, 0xeb41643e#32, 0x68b7b3e3#32, 0x3d1e3e6c#32⟩,
  ⟨0x3d1e3e6c#32, 0xe422531a#32, 0xeb41643e#32, 0x68b7b3e3#32⟩,
  ⟨0x68b7b3e3#32, 0x306ec122#32, 0xe422531a#32, 0xeb41643e#32⟩,
  ⟨0xeb41643e#32, 0xd28c77c2#32, 0x306ec122#32, 0xe422531a#32⟩,
  ⟨0xe422531a#32, 0xa3c663da#32, 0xd28c77c2#32, 0x306ec122#32⟩,
  ⟨0x306ec122#32, 0xa0572807#32, 0xa3c663da#32, 0xd28c77c2#32⟩,
  ⟨0xd28c77c2#32, 0x13707036#32, 0xa0572807#32, 0xa3c663da#32⟩,
  ⟨0xa3c663da#32, 0xae7813db#32, 0x13707036#32, 0xa0572807#32⟩,
  ⟨0xa0572807#32, 0x1c31c384#32, 0xae7813db#32, 0x13707036#32⟩]

/-- The rest of the trace. -/
def traceB : List Quad := [
  ⟨0x13707036#32, 0xa2205f1f#32, 0x1c31c384#32, 0xae7813db#32⟩,
  ⟨0xae7813db#32, 0xdf63eaa1#32, 0xa2205f1f#32, 0x1c31c384#32⟩,
  ⟨0x1c31c384#32, 0xc3689f5b#32, 0xdf63eaa1#32, 0xa2205f1f#32⟩,
  ⟨0xa2205f1f#32, 0x12f3e755#32, 0xc3689f5b#32, 0xdf63eaa1#32⟩,
  ⟨0xdf63eaa1#32, 0x004b6669#32, 0x12f3e755#32, 0xc3689f5b#32⟩,
  ⟨0xc3689f5b#32, 0x5f7a9b2e#32, 0x004b6669#32, 0x12f3e755#32⟩,
  ⟨0x12f3e755#32, 0xabc34e16#32, 0x5f7a9b2e#32, 0x004b6669#32⟩,
  ⟨0x004b6669#32, 0x91ca4cb7#32, 0xabc34e16#32, 0x5f7a9b2e#32⟩,
  ⟨0x5f7a9b2e#32, 0xc5dc8c15#32, 0x91ca4cb7#32, 0xabc34e16#32⟩,
  ⟨0xabc34e16#32, 0x4497169d#32, 0xc5dc8c15#32, 0x91ca4cb7#32⟩,
  ⟨0x91ca4cb7#32, 0x76fd93d4#32, 0x4497169d#32, 0xc5dc8c15#32⟩,
  ⟨0xc5dc8c15#32, 0xfd95f243#32, 0x76fd93d4#32, 0x4497169d#32⟩,
  ⟨0x4497169d#32, 0x0fe32453#32, 0xfd95f243#32, 0x76fd93d4#32⟩,
  ⟨0x76fd93d4#32, 0x3f55edfd#32, 0x0fe32453#32, 0xfd95f243#32⟩,
  ⟨0xfd95f243#32, 0x22a31f54#32, 0x3f55edfd#32, 0x0fe32453#32⟩,
  ⟨0x0fe32453#32, 0x68d84ea2#32, 0x22a31f54#32, 0x3f55edfd#32⟩,
  ⟨0x3f55edfd#32, 0xca7d2dbd#32, 0x68d84ea2#32, 0x22a31f54#32⟩,
  ⟨0x22a31f54#32, 0x93aa2577#32, 0xca7d2dbd#32, 0x68d84ea2#32⟩,
  ⟨0x68d84ea2#32, 0x1688dc85#32, 0x93aa2577#32, 0xca7d2dbd#32⟩,
  ⟨0xca7d2dbd#32, 0xcd85b8cb#32, 0x1688dc85#32, 0x93aa2577#32⟩,
  ⟨0x93aa2577#32, 0x561e0689#32, 0xcd85b8cb#32, 0x1688dc85#32⟩,
  ⟨0x1688dc85#32, 0x5625a114#32, 0x561e0689#32, 0xcd85b8cb#32⟩,
  ⟨0xcd85b8cb#32, 0x3450f42b#32, 0x5625a114#32, 0x561e0689#32⟩,
  ⟨0x561e0689#32, 0x392ad0d0#32, 0x3450f42b#32, 0x5625a114#32⟩,
  ⟨0x5625a114#32, 0x1e77fa61#32, 0x392ad0d0#32, 0x3450f42b#32⟩,
  ⟨0x3450f42b#32, 0x474a9c8c#32, 0x1e77fa61#32, 0x392ad0d0#32⟩,
  ⟨0x392ad0d0#32, 0xdfce00bc#32, 0x474a9c8c#32, 0x1e77fa61#32⟩,
  ⟨0x1e77fa61#32, 0x36594b14#32, 0xdfce00bc#32, 0x474a9c8c#32⟩,
  ⟨0x474a9c8c#32, 0x30130182#32, 0x36594b14#32, 0xdfce00bc#32⟩,
  ⟨0xdfce00bc#32, 0x7246fad3#32, 0x30130182#32, 0x36594b14#32⟩,
  ⟨0x36594b14#32, 0x6e10a476#32, 0x7246fad3#32, 0x30130182#32⟩,
  ⟨0x30130182#32, 0xff4ea3eb#32, 0x6e10a476#32, 0x7246fad3#32⟩,
  ⟨0x7246fad3#32, 0x14e45506#32, 0xff4ea3eb#32, 0x6e10a476#32⟩]

/-- Each of the 64 steps takes the trace from one line to the next, and moves the step index on (41_block_compression.md R143,
R156). -/
theorem test_every_step_follows_the_trace : ∀ i : Fin 64,
    (after (exec (stepInstr i) (inside i ((traceA ++ traceB).getD i.val iv) (0x80#8 :: List.replicate 63 0#8)))).map
      (fun t => (t.w, t.stepIndex.val)) = some ((traceA ++ traceB).getD (i.val + 1) iv, if i.val = 63 then 63 else i.val + 1) := by
  decide +kernel

/-- The last step of the same block compression, as a machine step: the add-back gives the accumulators of V1. -/
theorem test_step63_adds_back :
    (after (step { inside 63 ((traceA ++ traceB).getD 63 iv) (0x80#8 :: List.replicate 63 0#8) with acc := iv })).map
      (fun t => (t.acc, t.running)) = some (⟨0xd98c1dd4#32, 0x04b2008f#32, 0x980980e9#32, 0x7e42f8ec#32⟩, false) := by
  decide +kernel

/-! ### Whole blocks (95_test_vectors.md section 2.4) -/

theorem test_compress_zero_block : compress ⟨0#32, 0#32, 0#32, 0#32⟩ (List.replicate 64 0#8) =
    ⟨0xf7cd1c97#32, 0xa5483681#32, 0x2b68d832#32, 0xf90ca639#32⟩ := by decide +kernel

theorem test_compress_counting_block : compress iv ((List.range 64).map (BitVec.ofNat 8)) =
    ⟨0x9144d9ca#32, 0xd901e4c9#32, 0x72fc5b38#32, 0x625ff51e#32⟩ := by decide +kernel

theorem test_compress_chained : compress iv (letters 64) = h1 ∧ compress h1 (letters 64) = h2 := by decide +kernel

theorem test_compress_ones : compress ⟨0xffffffff#32, 0xffffffff#32, 0xffffffff#32, 0xffffffff#32⟩ (List.replicate 64 0xff#8) =
    ⟨0x6cba9129#32, 0x29ffd12a#32, 0x8b9bb7d3#32, 0xa9a0a3c1#32⟩ := by decide +kernel

/-- The role-fixed form on the block of the empty message (41_block_compression.md R158, trace of 96 section 2). -/
theorem test_role_fixed : stepsFixed 64 iv (messageWords (0x80#8 :: List.replicate 63 0#8)) =
    ⟨0x7246fad3#32, 0x14e45506#32, 0xff4ea3eb#32, 0x6e10a476#32⟩ := by decide +kernel

/-! ### INIT -/

/-- INIT from FINAL (95_test_vectors.md section 6, last row). -/
theorem test_init : after (exec .init final) = some { active with responses := [.ok []] } := by decide +kernel

/-! ### PROCESS (95_test_vectors.md sections 3.2 and 4) -/

/-- The outcome is a next state that holds this DigestState. -/
def digestIs (o : Host.Outcome State Fault Refusal) (acc : Quad) (pending : ByteString) (n : Dword) (finalized valid : Bool) : Bool :=
  match o with
  | .next t => t.acc == acc && t.pending == pending && t.totalLength == n && t.finalized == finalized && t.valid == valid
  | .fault _ => false
  | .refused _ => false

theorem test_process_one_block : digestIs (exec (.process (letters 65)) active) h1 (letters 1) 65#64 false true ∧
    digestIs (exec (.process (letters 1)) (activeAt 63)) h1 [] 64#64 false true ∧
    digestIs (exec (.process (letters 128)) active) h2 [] 128#64 false true ∧
    digestIs (exec (.process []) (activeAt 40)) iv (letters 40) 40#64 false true := by decide +kernel

/-- The counter wraps (section 3.2, second row). -/
theorem test_process_wraps :
    digestIs (exec (.process (letters 2)) (mk true false iv (letters 63) 0xffffffffffffffff#64)) h1 (letters 1) 1#64 false true := by decide +kernel

/-! ### FINISH (95_test_vectors.md sections 3 and 3.2) -/

/-- The boundary lengths 55, 56, 63 and 0 (padding only). -/
theorem test_finish_boundaries :
    answer (exec .finish (activeAt 55)) = some (0x00#8 :: hx 16 0xef1772b6dff9a122358552954ad0df65) ∧
    answer (exec .finish (activeAt 56)) = some (0x00#8 :: hx 16 0x3b0c8ac703f828b04c6c197006d17218) ∧
    answer (exec .finish (activeAt 63)) = some (0x00#8 :: hx 16 0xb06521f39153d618550606be297466d5) ∧
    answer (exec .finish (mk true false h1 [] 64#64)) = some (0x00#8 :: hx 16 0x014842d480b571495a4a0363793f7367) := by
  decide +kernel

/-- The bit length modulo 2^64 (first and third rows of section 3.2), and what FINISH writes (40_digest_engine.md R120). -/
theorem test_finish_bit_length :
    digestIs (exec .finish (mk true false iv (hx 3 0x616263) 0x2000000000000003#64)) ⟨0x98500190#32, 0xb04fd23c#32, 0x7d3f96d6#32, 0x727fe128#32⟩ (hx 3 0x616263) 0x2000000000000003#64 true true ∧
    padTail [] 0x1fffffffffffffff#64 = 0x80#8 :: (List.replicate 55 0#8 ++ hx 8 0xf8ffffffffffffff) := by decide +kernel

/-! ### ONESHOT: the vectors V1 to V4, and two messages of section 3.1 -/

theorem test_oneshot_fixed_points :
    answer (exec (.oneshot ([])) empty) = some (0x00#8 :: hx 16 0xd41d8cd98f00b204e9800998ecf8427e) ∧
    answer (exec (.oneshot (hx 1 0x61)) empty) = some (0x00#8 :: hx 16 0x0cc175b9c0f1b6a831c399e269772661) ∧
    answer (exec (.oneshot (hx 3 0x616263)) empty) = some (0x00#8 :: hx 16 0x900150983cd24fb0d6963f7d28e17f72) ∧
    answer (exec (.oneshot (hx 14 0x6d65737361676520646967657374)) empty) = some (0x00#8 :: hx 16 0xf96b697d7cb7938d525a2f31aaf161d0) := by decide +kernel

theorem test_oneshot_long :
    answer (exec (.oneshot (hx 80 0x3132333435363738393031323334353637383930313233343536373839303132333435363738393031323334353637383930313233343536373839303132333435363738393031323334353637383930))
      final) = some (0x00#8 :: hx 16 0x57edf4a22be3c955ac49da2e2107b67a) ∧
    answer (exec (.oneshot ((List.range 256).map (BitVec.ofNat 8))) (activeAt 3)) =
      some (0x00#8 :: hx 16 0xe2c865db4162bed963bfaa9ef6ac18f0) := by decide +kernel

/-! ### ENCODE and DECODE (95_test_vectors.md section 5) -/

theorem test_encode :
    answer (exec (.encode (hx 16 0xd41d8cd98f00b204e9800998ecf8427e)) empty) =
      some (0x00#8 :: hx 32 0x6434316438636439386630306232303465393830303939386563663834323765) ∧
    answer (exec (.encode (hx 16 0x000a0fa0f0102030405060708090aabb)) empty) =
      some (0x00#8 :: hx 32 0x3030306130666130663031303230333034303530363037303830393061616262) ∧
    answer (exec (.encode (hx 16 0xffffffffffffffffffffffffffffffff)) empty) =
      some (0x00#8 :: hx 32 0x6666666666666666666666666666666666666666666666666666666666666666) := by decide +kernel

theorem test_decode_accepts :
    answer (exec (.decode (hx 32 0x6434316438636439386630306232303465393830303939386563663834323765)) active) =
      some (0x00#8 :: hx 16 0xd41d8cd98f00b204e9800998ecf8427e) ∧
    answer (exec (.decode (hx 32 0x4434314438434439384630304232303445393830303939384543463834323745)) active) =
      some (0x00#8 :: hx 16 0xd41d8cd98f00b204e9800998ecf8427e) ∧
    answer (exec (.decode (hx 32 0x3031323334353637383961626364656641424344454630313233343536373839)) active) =
      some (0x00#8 :: hx 16 0x0123456789abcdefabcdef0123456789) := by decide +kernel

/-- Each malformed string of section 5: 31 and 33 characters, empty, 64, and 32 with one bad character at either side of a range. -/
theorem test_decode_refuses :
    [
hx 31 0x64343164386364393866303062323034653938303039393865636638343237,
     hx 33 0x643431643863643938663030623230346539383030393938656366383432376530,
     [],
     hx 64 0x64343164386364393866303062323034653938303039393865636638343237656434316438636439386630306232303465393830303939386563663834323765,
     hx 32 0x6734316438636439386630306232303465393830303939386563663834323765,
     hx 32 0x6434316438636439386630306232303465393830303939386563663834323747,
     hx 32 0x6434316438636439386630306232303420393830303939386563663834323765,
     hx 32 0x3078643431643863643938663030623230346539383030393938656366383432,
     hx 32 0x643431643863643938663030623230346539383030393938656366383432370a,
     hx 32 0x6434316438636439386630306232303465393830303939386563663834323700,
     hx 32 0x4034316438636439386630306232303465393830303939386563663834323765,
     hx 32 0x6034316438636439386630306232303465393830303939386563663834323765,
     hx 32 0x2f34316438636439386630306232303465393830303939386563663834323765,
     hx 32 0x3a34316438636439386630306232303465393830303939386563663834323765,
     hx 32 0xe434316438636439386630306232303465393830303939386563663834323765].all (fun t => answer (exec (.decode t) active) == some [0x02#8]) := by decide +kernel

/-- `hexval` at both ends of its three ranges (95_test_vectors.md section 5), and the count of valid codes. -/
theorem test_hexval : hexval 0x2f#8 = none ∧ hexval 0x30#8 = some 0#4 ∧ hexval 0x39#8 = some 9#4 ∧ hexval 0x3a#8 = none ∧
    hexval 0x40#8 = none ∧ hexval 0x41#8 = some 10#4 ∧ hexval 0x46#8 = some 15#4 ∧ hexval 0x47#8 = none ∧
    hexval 0x60#8 = none ∧ hexval 0x61#8 = some 10#4 ∧ hexval 0x66#8 = some 15#4 ∧ hexval 0x67#8 = none ∧
    ((List.range 256).filter (fun c => (hexval (BitVec.ofNat 8 c)).isSome)).length = 22 := by decide +kernel

/-! ### Packets, errors and their priority (95_test_vectors.md section 6) -/

/-- One packet sent in a state: the response packet, and whether the DigestState is unchanged. -/
def packetRow (s : State) (p : Packet) : Option (ByteString × Bool) :=
  (after (step (sent p s))).bind (fun t => t.responses.getLast?.map (fun r =>
    (responseBytes r, (t.acc, t.pending, t.totalLength, t.finalized, t.valid) = (s.acc, s.pending, s.totalLength, s.finalized, s.valid))))

theorem test_illegal_packets :
    [(empty, (⟨0x06#8, []⟩ : Packet)), (active, ⟨0x06#8, []⟩), (final, ⟨0x06#8, []⟩), (active, ⟨0x07#8, []⟩), (active, ⟨0x08#8, []⟩),
     (active, ⟨0x81#8, hx 1 0x61⟩), (active, ⟨0xff#8, []⟩), (active, ⟨0x00#8, hx 1 0⟩), (active, ⟨0x02#8, hx 1 0⟩),
     (empty, ⟨0x02#8, hx 1 0⟩), (active, ⟨0x04#8, List.replicate 15 0#8⟩)].all
      (fun row => packetRow row.1 row.2 == some ([0x03#8], true)) := by decide +kernel

theorem test_invalid_state :
    [(empty, (⟨0x01#8, hx 1 0x61⟩ : Packet)), (empty, ⟨0x01#8, []⟩), (empty, ⟨0x02#8, []⟩), (final, ⟨0x01#8, hx 1 0x61⟩),
     (final, ⟨0x01#8, []⟩)].all (fun row => packetRow row.1 row.2 == some ([0x01#8], true)) := by decide +kernel

theorem test_answers_that_change_nothing :
    packetRow final ⟨0x02#8, []⟩ = some (0x00#8 :: hx 16 0xd41d8cd98f00b204e9800998ecf8427e, true) ∧
    packetRow empty ⟨0x03#8, []⟩ = some (0x00#8 :: hx 16 0xd41d8cd98f00b204e9800998ecf8427e, true) ∧
    packetRow final ⟨0x03#8, hx 3 0x616263⟩ = some (0x00#8 :: hx 16 0x900150983cd24fb0d6963f7d28e17f72, true) ∧
    packetRow active ⟨0x05#8, hx 2 0x7a7a⟩ = some ([0x02#8], true) := by decide +kernel

/-- ENCODE executed directly on a payload that no packet carries (30_encoding.md R89). -/
theorem test_encode_wrong_length : answer (exec (.encode (List.replicate 15 0#8)) active) = some [0x03#8] := by decide +kernel

/-! ### Reset (70_reset_and_hazards.md R230, R231) and several engines -/

theorem test_reset_event_inside_a_block :
    (after (step { inside 20 iv (letters 64) with valid := true, finalized := true, inputs := [.reset (hx 2 0x0161), .packet ⟨0x02#8, []⟩] })).map
      (fun t => (t.valid, t.finalized, t.running, t.inputs, t.responses)) =
    some (false, false, false, [.packet ⟨0x02#8, []⟩], []) := by decide +kernel

theorem test_idle : after (step active) = some active := by decide +kernel

theorem test_engines_are_separate :
    (match stepEngine 1 [final, sent ⟨0x00#8, []⟩ final] with
      | .next es => es.map (fun t => phaseOf t)
      | _ => []) = [.final, .active] := by decide +kernel

/-! ### Command lines (30_encoding.md R95) -/

theorem test_lines : (linePacket .init).bytes = [0x00#8] ∧
    (linePacket (.process [.ascii ['a', 'b', 'c']])).bytes = hx 4 0x01616263 ∧
    (linePacket (.oneshot [.ascii ['a']])).bytes = hx 2 0x0361 ∧ (linePacket (.decode [.ascii ['z', 'z']])).bytes = hx 3 0x057a7a ∧
    (linePacket (.process [.rep (.ascii ['a']) 3, .hex [0x80#8]])).bytes = hx 5 0x0161616180 := by decide +kernel

/-! ### Witnesses: for every obligation with hypotheses, concrete states and operands that meet them, clause by clause -/

/-- O1: a well-formed instruction with a payload rule and one without operand. -/
theorem test_witness_decoding_an_encoding : (Instr.encode (hx 16 0xff)).WellFormed ∧ Instr.step63.WellFormed := by decide

/-- O2: objects of both kinds that decode. -/
theorem test_witness_every_decoded_object : decode (.packet ⟨0x04#8, hx 16 0xff⟩) = .ok (.encode (hx 16 0xff)) ∧
    decode (.controlWord 0x735eb86d391#43) = .ok .step63 := ⟨rfl, rfl⟩

/-- O3: both sides of its equivalences are inhabited, and both are empty somewhere. -/
theorem test_witness_legal_packets : LegalPacket ⟨0x00#8, []⟩ ∧ LegalPacket ⟨0x01#8, []⟩ ∧ LegalPacket ⟨0x02#8, []⟩ ∧
    LegalPacket ⟨0x03#8, []⟩ ∧ LegalPacket ⟨0x04#8, hx 16 0⟩ ∧ LegalPacket ⟨0x05#8, []⟩ := by unfold LegalPacket; decide

theorem test_witness_illegal_packets : ¬ LegalPacket ⟨0x00#8, hx 1 0⟩ ∧ ¬ LegalPacket ⟨0x02#8, hx 1 0⟩ ∧
    ¬ LegalPacket ⟨0x04#8, hx 15 0⟩ ∧ ¬ LegalPacket ⟨0x04#8, hx 17 0⟩ ∧ ¬ LegalPacket ⟨0x06#8, []⟩ ∧ ¬ LegalPacket ⟨0xff#8, []⟩ := by
  unfold LegalPacket; decide

/-- O5. -/
theorem test_witness_step_executes_the_command : (sent ⟨0x02#8, []⟩ (activeAt 56)).running = false ∧
    (sent ⟨0x02#8, []⟩ (activeAt 56)).inputs = .packet ⟨0x02#8, []⟩ :: [] ∧ decodePacket ⟨0x02#8, []⟩ = .ok .finish :=
  ⟨rfl, rfl, rfl⟩

/-- O6, O42: no reset event is next, with nothing sent and with a packet sent; the first and the last step index. -/
theorem test_witness_inside : (inside 0 iv (letters 64)).running = true ∧ NoResetNext (inside 0 iv (letters 64)) ∧
    (inside 63 iv (letters 64)).running = true ∧ NoResetNext (sent ⟨0x00#8, []⟩ (inside 63 iv (letters 64))) := by
  refine ⟨rfl, ?_, rfl, ?_⟩ <;> (intro cut rest h; cases h)

/-- O8. -/
theorem test_witness_illegal_step : (sent ⟨0x08#8, []⟩ active).running = false ∧
    (sent ⟨0x08#8, []⟩ active).inputs = .packet ⟨0x08#8, []⟩ :: [] ∧ ¬ LegalPacket ⟨0x08#8, []⟩ := by
  unfold LegalPacket; decide

/-- O9: every clause of the priority rule. -/
theorem test_witness_first_failing_check : (sent ⟨0x02#8, hx 1 0⟩ empty).running = false ∧
    (sent ⟨0x02#8, hx 1 0⟩ empty).inputs = .packet ⟨0x02#8, hx 1 0⟩ :: [] ∧ ¬ LegalPacket ⟨0x02#8, hx 1 0⟩ ∧
    (LegalPacket ⟨0x01#8, []⟩ ∧ phaseOf empty ≠ .active ∧ phaseOf final ≠ .active) ∧
    (LegalPacket ⟨0x02#8, []⟩ ∧ phaseOf empty = .empty ∧ phaseOf final ≠ .empty) ∧
    (LegalPacket ⟨0x05#8, hx 2 0x7a7a⟩ ∧ ¬ WellFormedSignature (hx 2 0x7a7a)) := by
  unfold LegalPacket WellFormedSignature HexCode; decide

/-- O10: PROCESS and FINISH where they cannot fail, ENCODE's length, and both sides of DECODE's condition. -/
theorem test_witness_cannot_fail : (sent ⟨0x02#8, []⟩ final).running = false ∧
    (sent ⟨0x02#8, []⟩ final).inputs = .packet ⟨0x02#8, []⟩ :: [] ∧ phaseOf (sent ⟨0x02#8, []⟩ final) = .final ∧ phaseOf active = .active ∧ phaseOf final = .final ∧ (hx 16 0).length = 16 ∧
    WellFormedSignature (List.replicate 32 0x30#8) ∧ ¬ WellFormedSignature (List.replicate 31 0x30#8) := by
  unfold WellFormedSignature HexCode; decide

/-- O11, O12. -/
theorem test_witness_reset_and_idle :
    { inside 20 iv (letters 64) with inputs := [.reset []] }.inputs = .reset [] :: [] ∧ active.running = false ∧ active.inputs = [] :=
  ⟨rfl, rfl, rfl⟩

/-- O14: a state with 63 pending bytes meets the invariant, and a machine step leads on from it. -/
theorem test_witness_invariant : (sent ⟨0x01#8, letters 1⟩ (activeAt 63)).Inv ∧
    (after (step (sent ⟨0x01#8, letters 1⟩ (activeAt 63)))).isSome = true := by
  refine ⟨⟨by decide, by decide, fun _ => by decide⟩, by decide +kernel⟩

/-- O15 to O17: instructions that answer a next state, in each phase. -/
theorem test_witness_exec_next : (after (exec .init empty)).isSome = true ∧ (after (exec .finish active)).isSome = true ∧
    (after (exec .finish final)).isSome = true ∧ (after (exec (.process (letters 1)) (activeAt 63))).isSome = true ∧
    (activeAt 63).totalLength.toNat + (letters 1).length < 2 ^ 64 ∧ final.valid = true ∧ final.finalized = true ∧
    (activeAt 63).valid = true ∧ (activeAt 63).finalized = false ∧ (activeAt 63).pending.length < 64 ∧
    (after (exec .step16 final)).isSome = true := by decide +kernel

/-- O18, O19: a command that ends in each error. -/
theorem test_witness_errors : (after (exec .finish empty)).map (fun t => t.responses) = some (empty.responses ++ [.error .invalidState]) ∧
    (after (exec (.decode (hx 2 0x7a7a)) active)).map (fun t => t.responses) = some (active.responses ++ [.error .malformedInput]) ∧
    (after (exec (.encode []) active)).map (fun t => t.responses) = some (active.responses ++ [.error .illegalCommand]) := by
  decide +kernel

/-- O20: a step that answers and a step that does not. -/
theorem test_witness_step_answers : (after (step (sent ⟨0x00#8, []⟩ empty))).isSome = true ∧ (after (step empty)).isSome = true := by
  decide +kernel

/-- O21: two states that differ in everything the host cannot see, and two that agree in phase ACTIVE. -/
theorem test_witness_host_equal : HostEqual (mk false false iv (letters 5) 7#64) { empty with w := h1, stepIndex := 9, blk := [] } ∧
    HostEqual (activeAt 63) { activeAt 63 with w := h2, stepIndex := 63, blk := letters 64 } :=
  ⟨⟨rfl, rfl, rfl, rfl, rfl, fun h => by cases h⟩, ⟨rfl, rfl, rfl, rfl, rfl, fun _ => ⟨rfl, rfl, rfl, rfl, rfl⟩⟩⟩

/-- O22. -/
theorem test_witness_engines : ([empty, sent ⟨0x00#8, []⟩ final] : List State)[1]? = some (sent ⟨0x00#8, []⟩ final) ∧
    [1, 0, 1].count 1 = 2 := ⟨rfl, rfl⟩

/-- O23: two INITs in a row. -/
theorem test_witness_init_twice : after (exec .init final) = some { active with responses := [.ok []] } ∧
    (after (exec .init { active with responses := [.ok []] })).isSome = true := by decide +kernel

/-- O24: PROCESS below and at a whole block, in phase ACTIVE, and the two phases that refuse it. -/
theorem test_witness_process : (activeAt 62).valid = true ∧ (activeAt 62).finalized = false ∧
    ((activeAt 62).pending ++ letters 1).length < 64 ∧ ¬ ((activeAt 63).pending ++ letters 1).length < 64 ∧
    empty.valid = false ∧ final.finalized = true := by decide

/-- O25, O26, O28, O30: phase ACTIVE with 63 pending bytes, and phase FINAL. -/
theorem test_witness_active : phaseOf (activeAt 63) = .active ∧ (activeAt 63).pending.length < 64 ∧ phaseOf final = .final ∧
    (after (exec .finish (activeAt 63))).isSome = true := by decide +kernel

/-- O27, O29, O30: pending lengths where the clauses meet: 0, 55, 56 and 63, and both tail lengths. -/
theorem test_witness_padding : (padTail [] 0#64).length = 64 ∧ (padTail (letters 55) 55#64).length = 64 ∧
    (padTail (letters 56) 56#64).length = 128 ∧ (padTail (letters 63) 63#64).length = 128 ∧ (letters 63).length < 64 ∧
    (activeAt 55).pending.length ≤ 55 ∧ 56 ≤ (activeAt 56).pending.length ∧ empty.valid = false := by decide +kernel

/-- O35. -/
theorem test_witness_block : (letters 64).length = 64 := by decide

/-- O36 to O39: the first row of each table is a member of it, whatever the other rows; the step index moves on below 63. -/
theorem test_witness_rows (rest : List (Nat × Instr × Nat × Nat × Word)) :
    (0, .step0, 0, 7, 0xd76aa478#32) ∈ ((0, .step0, 0, 7, 0xd76aa478#32) : Nat × Instr × Nat × Nat × Word) :: rest ∧
    (16, .step16, 1, 5, 0xf61e2562#32) ∈ ((16, .step16, 1, 5, 0xf61e2562#32) : Nat × Instr × Nat × Nat × Word) :: rest ∧
    (32, .step32, 5, 4, 0xfffa3942#32) ∈ ((32, .step32, 5, 4, 0xfffa3942#32) : Nat × Instr × Nat × Nat × Word) :: rest ∧
    (48, .step48, 0, 6, 0xf4292244#32) ∈ ((48, .step48, 0, 6, 0xf4292244#32) : Nat × Instr × Nat × Nat × Word) :: rest ∧
    (48 : Nat) < 63 := ⟨.head _, .head _, .head _, .head _, by decide⟩

/-- O40, O41: the ends of the bit range and of the rotate range. -/
theorem test_witness_ranges : (0 : Nat) < 32 ∧ (31 : Nat) < 32 ∧ (4 ≤ 4 ∧ (4 : Nat) ≤ 23) ∧ (4 ≤ 23 ∧ (23 : Nat) ≤ 23) := by decide

/-- O44, O45, O48: a Digest, a payload that is none, a signature string in mixed case, and one character too few. -/
theorem test_witness_codec : (hx 16 0xff).length = 16 ∧ (hx 15 0).length ≠ 16 ∧
    WellFormedSignature (List.replicate 16 0x41#8 ++ List.replicate 16 0x66#8) ∧
    ¬ WellFormedSignature (List.replicate 31 0x41#8) ∧ ¬ WellFormedSignature (0x47#8 :: List.replicate 31 0x41#8) := by
  unfold WellFormedSignature HexCode; decide

/-- O49. -/
theorem test_witness_codec_or_oneshot : ∃ p, Instr.encode [] = .encode p ∨ Instr.encode [] = .decode p ∨ Instr.encode [] = .oneshot p :=
  ⟨[], .inl rfl⟩

end Sys2Proof.Tests
end

/-! ## The meanings of the instructions and of the step, one equation per outcome -/

namespace Sys2Proof.Machine

variable {i : Instr} {p : ByteString} {s t : State}

theorem exec_init (s : State) : exec .init s = .next (respond (.ok []) (freshDigest s)) := rfl

theorem exec_process_active (h : phaseOf s = .active) :
    exec (.process p) s = .next (respond (.ok []) (absorb p s)) := by
  simp only [exec, execProcess, h]

theorem exec_process_refused (h : phaseOf s ≠ .active) : exec (.process p) s = .next (raiseErr .invalidState s) := by
  cases hs : phaseOf s with
  | active => exact absurd hs h
  | empty => simp only [exec, execProcess, hs]
  | final => simp only [exec, execProcess, hs]

/-- The two ends of PROCESS (R111, R201). -/
theorem exec_process_next (h : exec (.process p) s = .next t) :
    phaseOf s = .active ∧ t = respond (.ok []) (absorb p s) ∨ phaseOf s ≠ .active ∧ t = raiseErr .invalidState s := by
  by_cases ha : phaseOf s = .active
  · rw [exec_process_active ha] at h
    exact .inl ⟨ha, (Host.Outcome.next.inj h).symm⟩
  · rw [exec_process_refused ha] at h
    exact .inr ⟨ha, (Host.Outcome.next.inj h).symm⟩

theorem exec_finish_active (h : phaseOf s = .active) :
    exec .finish s = .next (respond (.ok (serialize (finishDigest s).acc)) (finishDigest s)) := by
  simp only [exec, execFinish, h]

theorem exec_finish_final (h : phaseOf s = .final) : exec .finish s = .next (respond (.ok (serialize s.acc)) s) := by
  simp only [exec, execFinish, h]

theorem exec_finish_empty (h : phaseOf s = .empty) : exec .finish s = .next (raiseErr .invalidState s) := by
  simp only [exec, execFinish, h]

/-- The three ends of FINISH (R115, R121, R201). -/
theorem exec_finish_next (h : exec .finish s = .next t) :
    phaseOf s = .active ∧ t = respond (.ok (serialize (finishDigest s).acc)) (finishDigest s) ∨
      phaseOf s = .final ∧ t = respond (.ok (serialize s.acc)) s ∨
      phaseOf s = .empty ∧ t = raiseErr .invalidState s := by
  cases hs : phaseOf s with
  | active =>
    rw [exec_finish_active hs] at h
    exact .inl ⟨rfl, (Host.Outcome.next.inj h).symm⟩
  | final =>
    rw [exec_finish_final hs] at h
    exact .inr (.inl ⟨rfl, (Host.Outcome.next.inj h).symm⟩)
  | empty =>
    rw [exec_finish_empty hs] at h
    exact .inr (.inr ⟨rfl, (Host.Outcome.next.inj h).symm⟩)

/-- Every instruction but INIT, PROCESS and FINISH gives an answer that does not depend on the state and changes nothing else
(ONESHOT, ENCODE and DECODE: R122, R187), or is a step micro-operation (R143). -/
theorem exec_other (hi : i ≠ .init) (hf : i ≠ .finish) (hp : ∀ p, i ≠ .process p) :
    (∃ r, ∀ s, exec i s = .next (respond r s)) ∨ ∃ k, ∀ s, exec i s = .next (runStep k s) := by
  cases i with
  | init => exact absurd rfl hi
  | process p => exact absurd rfl (hp p)
  | finish => exact absurd rfl hf
  | oneshot p => exact .inl ⟨.ok (md5 p), fun _ => rfl⟩
  | encode d =>
    by_cases hd : d.length = Config.digestBytes
    · exact .inl ⟨.ok (encodeHex d), fun _ => if_pos hd⟩
    · exact .inl ⟨.error .illegalCommand, fun _ => if_neg hd⟩
  | decode t =>
    cases hd : decodeHex t with
    | some d => exact .inl ⟨.ok d, fun _ => by simp only [exec, execDecode, hd]⟩
    | none => exact .inl ⟨.error .malformedInput, fun _ => by simp only [exec, execDecode, hd]; rfl⟩
  | _ => exact .inr ⟨_, fun _ => rfl⟩

/-! ### The step, by what is fetched -/

theorem step_idle (h : fetch s = .idle) : step s = .next s := by simp only [step, h]

theorem step_reset {rest : List Input} (h : fetch s = .reset rest) :
    step s = .next (resetEvent { s with inputs := rest }) := by
  simp only [step, h]

theorem step_command {q : Packet} {rest : List Input} (h : fetch s = .command q rest) (hd : decodePacket q = .ok i) :
    step s = exec i { s with inputs := rest } := by
  simp only [step, h, hd]

theorem step_illegal {q : Packet} {rest : List Input} {e : Reject} (h : fetch s = .command q rest)
    (hd : decodePacket q = .error e) : step s = .next (raiseErr .illegalCommand { s with inputs := rest }) := by
  simp only [step, h, hd]

end Sys2Proof.Machine

/-! ## The host's view (10_state.md section 8): every step keeps `HostEqual` -/

namespace Sys2Proof.Machine

variable {s t : State}

/-- Both outcomes are next states, and the host cannot tell these apart. -/
def NextHostEqual (o₁ o₂ : Host.Outcome State Fault Refusal) : Prop :=
  ∃ s' t', o₁ = .next s' ∧ o₂ = .next t' ∧ HostEqual s' t'

theorem HostEqual.next (h : HostEqual s t) : NextHostEqual (.next s) (.next t) := ⟨s, t, rfl, rfl, h⟩

theorem HostEqual.phaseOf (h : HostEqual s t) : Machine.phaseOf t = Machine.phaseOf s := by
  cases hv : s.valid with
  | true => exact (h.digestEq hv).phaseOf
  | false => rw [(phaseOf_eq_empty s).mpr hv, (phaseOf_eq_empty t).mpr (h.validEq.trans hv)]

/-! ### The operations on the state keep it -/

theorem HostEqual.respond (r : Response) (h : HostEqual s t) : HostEqual (respond r s) (respond r t) where
  idleLeft := h.idleLeft
  idleRight := h.idleRight
  inputsEq := h.inputsEq
  responsesEq := congrArg (· ++ [r]) h.responsesEq
  validEq := h.validEq
  digestEq := h.digestEq

theorem HostEqual.takeInput (rest : List Input) (h : HostEqual s t) :
    HostEqual { s with inputs := rest } { t with inputs := rest } :=
  { h with inputsEq := rfl }

theorem HostEqual.resetEvent (h : HostEqual s t) : HostEqual (resetEvent s) (resetEvent t) where
  idleLeft := rfl
  idleRight := rfl
  inputsEq := h.inputsEq
  responsesEq := h.responsesEq
  validEq := rfl
  digestEq _ := SameDigest.refl _

/-- A step micro-operation outside a block compression writes hidden state only. -/
theorem HostEqual.runStep (k : Fin 64) (h : HostEqual s t) : HostEqual (runStep k s) (runStep k t) :=
  { h with }

/-- INIT writes every field of the DigestState and reads none. -/
theorem HostEqual.freshDigest (h : HostEqual s t) : HostEqual (freshDigest s) (freshDigest t) :=
  { h with
    validEq := rfl
    digestEq := fun _ => ⟨rfl, rfl, rfl, rfl, rfl⟩ }

theorem HostEqual.absorb (p : ByteString) (h : HostEqual s t) : HostEqual (absorb p s) (absorb p t) where
  idleLeft := absorb_running p s h.idleLeft
  idleRight := absorb_running p t h.idleRight
  inputsEq := by simp [h.inputsEq]
  responsesEq := by simp [h.responsesEq]
  validEq := by simp [h.validEq]
  digestEq hv := (h.digestEq (by simpa using hv)).absorb p

theorem HostEqual.finishDigest (h : HostEqual s t) : HostEqual (finishDigest s) (finishDigest t) where
  idleLeft := finishDigest_running s
  idleRight := finishDigest_running t
  inputsEq := by simp [h.inputsEq]
  responsesEq := by simp [h.responsesEq]
  validEq := by simp [h.validEq]
  digestEq hv := (h.digestEq (by simpa using hv)).finishDigest

/-! ### The instructions and the step keep it -/

theorem HostEqual.execProcess (p : ByteString) (h : HostEqual s t) :
    NextHostEqual (exec (.process p) s) (exec (.process p) t) := by
  by_cases hs : Machine.phaseOf s = .active
  · rw [exec_process_active hs, exec_process_active (h.phaseOf.trans hs)]
    exact ((h.absorb p).respond _).next
  · rw [exec_process_refused hs, exec_process_refused (h.phaseOf ▸ hs)]
    exact (h.respond _).next

/-- FINISH answers with accumulators only where `valid = 1`, so that they agree. -/
theorem HostEqual.execFinish (h : HostEqual s t) : NextHostEqual (exec .finish s) (exec .finish t) := by
  cases hs : Machine.phaseOf s with
  | empty =>
    rw [exec_finish_empty hs, exec_finish_empty (h.phaseOf.trans hs)]
    exact (h.respond _).next
  | active =>
    have hd := (h.digestEq ((phaseOf_eq_active s).mp hs).1).finishDigest
    rw [exec_finish_active hs, exec_finish_active (h.phaseOf.trans hs), hd.1]
    exact (h.finishDigest.respond _).next
  | final =>
    have hd := h.digestEq ((phaseOf_eq_final s).mp hs).1
    rw [exec_finish_final hs, exec_finish_final (h.phaseOf.trans hs), hd.1]
    exact (h.respond _).next

theorem HostEqual.exec (i : Instr) (h : HostEqual s t) : NextHostEqual (exec i s) (exec i t) := by
  by_cases hi : i = .init
  · rw [hi, exec_init, exec_init]
    exact (h.freshDigest.respond _).next
  by_cases hf : i = .finish
  · exact hf ▸ h.execFinish
  by_cases hp : ∃ p, i = .process p
  · obtain ⟨p, rfl⟩ := hp
    exact h.execProcess p
  obtain ⟨r, hr⟩ | ⟨k, hk⟩ := exec_other hi hf (not_exists.mp hp)
  · rw [hr, hr]
    exact (h.respond r).next
  · rw [hk, hk]
    exact (h.runStep k).next

theorem HostEqual.step (h : HostEqual s t) : NextHostEqual (step s) (step t) := by
  cases hs : s.inputs with
  | nil =>
    rw [step_idle (fetch_idle s h.idleLeft hs), step_idle (fetch_idle t h.idleRight (h.inputsEq.trans hs))]
    exact h.next
  | cons input rest =>
    have ht := h.inputsEq.trans hs
    have hrest := h.takeInput rest
    cases input with
    | reset cut =>
      rw [step_reset (fetch_reset s cut rest hs), step_reset (fetch_reset t cut rest ht)]
      exact hrest.resetEvent.next
    | packet p =>
      have hsp := fetch_command s p rest h.idleLeft hs
      have htp := fetch_command t p rest h.idleRight ht
      cases hd : decodePacket p with
      | ok i =>
        rw [step_command hsp hd, step_command htp hd]
        exact hrest.exec i
      | error e =>
        rw [step_illegal hsp hd, step_illegal htp hd]
        exact (hrest.respond _).next

/-- Settles O21: `HostEqual` is kept by every step, hence by every run. -/
theorem theHostSeesOnlyTheLiveDigestState : Obligations.TheHostSeesOnlyTheLiveDigestState := by
  intro n
  induction n with
  | zero => exact fun s t h => ⟨s, t, rfl, rfl, h⟩
  | succ n ih =>
    intro s t h
    obtain ⟨s₁, t₁, hs, ht, h₁⟩ := h.step
    obtain ⟨s', t', hs', ht', h'⟩ := ih s₁ t₁ h₁
    exact ⟨s', t', (run_succ_of_step core n s s₁ hs).trans hs', (run_succ_of_step core n t t₁ ht).trans ht', h'⟩

end Sys2Proof.Machine

/-! ## `total_length` and `finalized` (10_state.md sections 4 and 5) -/

namespace Sys2Proof.Machine

variable {i : Instr} {p : ByteString} {s t : State}

theorem totalLength_of_exec_process (h : exec (.process p) s = .next t) :
    t.totalLength = if phaseOf s = .active then s.totalLength + BitVec.ofNat 64 p.length else s.totalLength := by
  obtain ⟨ha, rfl⟩ | ⟨ha, rfl⟩ := exec_process_next h
  · simp [ha, add64]
  · simp [ha]

theorem totalLength_of_exec_finish (h : exec .finish s = .next t) : t.totalLength = s.totalLength := by
  obtain ⟨-, rfl⟩ | ⟨-, rfl⟩ | ⟨-, rfl⟩ := exec_finish_next h
  · simp
  · simp
  · simp

theorem finalized_of_exec_process (h : exec (.process p) s = .next t) : t.finalized = s.finalized := by
  obtain ⟨-, rfl⟩ | ⟨-, rfl⟩ := exec_process_next h
  · simp
  · simp

theorem finalized_of_exec_finish (h : exec .finish s = .next t) :
    t.finalized = if s.valid = true then true else s.finalized := by
  obtain ⟨hs, rfl⟩ | ⟨hs, rfl⟩ | ⟨hs, rfl⟩ := exec_finish_next h
  · simp [(phaseOf_eq_active s).mp hs]
  · simp [(phaseOf_eq_final s).mp hs]
  · simp [(phaseOf_eq_empty s).mp hs]

/-- The instructions other than INIT, PROCESS and FINISH write no field of the DigestState (R122, R159, R187). -/
theorem sameDigest_of_exec_other (h : exec i s = .next t) (hi : i ≠ .init) (hf : i ≠ .finish)
    (hp : ∀ p, i ≠ .process p) : SameDigest s t := by
  obtain ⟨r, hr⟩ | ⟨k, hk⟩ := exec_other hi hf hp
  · rw [hr] at h
    cases h
    exact ⟨rfl, rfl, rfl, rfl, rfl⟩
  · rw [hk] at h
    cases h
    exact ⟨rfl, rfl, rfl, rfl, rfl⟩

/-- Nor do they read `finalized`. -/
theorem exec_other_of_finalized (hi : i ≠ .init) (hf : i ≠ .finish) (hp : ∀ p, i ≠ .process p)
    (h : exec i s = .next t) (b : Bool) : exec i { s with finalized := b } = .next { t with finalized := b } := by
  obtain ⟨r, hr⟩ | ⟨k, hk⟩ := exec_other hi hf hp
  · rw [hr] at h
    cases h
    exact hr _
  · rw [hk] at h
    cases h
    exact hk _

/-- The one or two compressions of FINISH are the chain over the whole blocks of the padded tail (R115, R117). -/
theorem finishDigest_acc_eq_chain (hp : s.pending.length < 64) :
    (finishDigest s).acc =
      chain ((padTail s.pending s.totalLength).length / 64) (padTail s.pending s.totalLength) s.acc := by
  rw [finishDigest_acc, padTail_length _ _ hp]
  by_cases h : s.pending.length < 56
  · simp [h, chain_succ]
  · simp [h, chain_succ]

/-- Settles O16: INIT and PROCESS write the count, FINISH and every other instruction keep it. -/
theorem totalLengthCountsProcessedBytesOnly : Obligations.TotalLengthCountsProcessedBytesOnly := by
  intro i s t h
  cases i with
  | init =>
    cases h
    exact ⟨rfl, fun hi => absurd rfl hi⟩
  | process p =>
    have ht := totalLength_of_exec_process h
    refine ⟨ht, fun _ hb => ?_⟩
    have hlt := hb p rfl
    rw [ht]
    split
    · rw [BitVec.toNat_add, BitVec.toNat_ofNat]
      omega
    · exact le_rfl
  | finish =>
    have ht := totalLength_of_exec_finish h
    exact ⟨ht, fun _ _ => ht ▸ le_rfl⟩
  | _ =>
    obtain ⟨-, -, ht, -⟩ := sameDigest_of_exec_other h nofun nofun nofun
    exact ⟨ht, fun _ _ => ht ▸ le_rfl⟩

/-- Settles O17: the writers of the flag, the two commands that read it, and that nothing else does. -/
theorem finalizedIsSetByFinishAndClearedByInit : Obligations.FinalizedIsSetByFinishAndClearedByInit := by
  refine ⟨fun i s t h => ?_, fun p s hf => ?_, fun s hv hf => ?_, fun s hv hf hp => ?_,
    fun i s t b hi hf hp h => exec_other_of_finalized hi hf hp h b, fun s t b h => h⟩
  · cases i with
    | init =>
      cases h
      rfl
    | process p => exact finalized_of_exec_process h
    | finish => exact finalized_of_exec_finish h
    | _ =>
      obtain ⟨-, -, -, hfin, -⟩ := sameDigest_of_exec_other h nofun nofun nofun
      exact hfin
  · have hs : phaseOf s ≠ .active := fun ha => by simp [((phaseOf_eq_active s).mp ha).2] at hf
    exact exec_process_refused hs
  · exact exec_finish_final ((phaseOf_eq_final s).mpr ⟨hv, hf⟩)
  · refine ⟨_, exec_finish_active ((phaseOf_eq_active s).mpr ⟨hv, hf⟩), rfl, ?_, ?_⟩
    · rw [respond_acc, finishDigest_acc_eq_chain hp]
    · rw [respond_responses, respond_acc, finishDigest_responses]

end Sys2Proof.Machine

/-! ## Every step goes on (60_exceptions.md R200, R208) -/

namespace Sys2Proof.Machine

/-- Every instruction has a next state: the errors of a command are answers (R208), and no arm of `exec` refuses. -/
theorem exec_goes (i : Instr) (s : State) : ∃ t, exec i s = .next t := by
  by_cases hi : i = .init
  · exact ⟨_, hi ▸ exec_init s⟩
  by_cases hf : i = .finish
  · cases hs : phaseOf s with
    | empty => exact ⟨_, hf ▸ exec_finish_empty hs⟩
    | active => exact ⟨_, hf ▸ exec_finish_active hs⟩
    | final => exact ⟨_, hf ▸ exec_finish_final hs⟩
  by_cases hp : ∃ p, i = .process p
  · obtain ⟨p, rfl⟩ := hp
    by_cases hs : phaseOf s = .active
    · exact ⟨_, exec_process_active hs⟩
    · exact ⟨_, exec_process_refused hs⟩
  obtain ⟨r, hr⟩ | ⟨k, hk⟩ := exec_other hi hf (not_exists.mp hp)
  · exact ⟨_, hr s⟩
  · exact ⟨_, hk s⟩

/-- Inside a block compression a step is the micro-operation at the step index and the sequencer's part after it (R94, R156). -/
theorem step_control {s : State} {cw : ControlWord} (h : fetch s = .control cw) :
    step s = .next (afterStep s.stepIndex (runStep s.stepIndex s)) := by
  obtain ⟨rfl, -⟩ := fetch_control_rom s cw h
  simp only [step, h, decodeControlWord_rom, exec_stepInstr, stepOutcome]

/-- No state is one in which the machine stops. -/
theorem step_goes (s : State) : Goes s := by
  cases h : fetch s with
  | idle => exact ⟨_, step_idle h⟩
  | reset rest => exact ⟨_, step_reset h⟩
  | control cw => exact ⟨_, step_control h⟩
  | command p rest =>
    cases hd : decodePacket p with
    | error e => exact ⟨_, step_illegal h hd⟩
    | ok i =>
      obtain ⟨t, ht⟩ := exec_goes i { s with inputs := rest }
      exact ⟨t, (step_command h hd).trans ht⟩

end Sys2Proof.Machine

/-! ## Several engines (20_memory.md section 7, 60_exceptions.md section 10) -/

namespace Sys2Proof.Machine

variable {j : Nat} {es es' : List State} {s t : State}

theorem stepEngine_of_none (h : es[j]? = none) : stepEngine j es = .next es := by
  simp only [stepEngine, h]

theorem stepEngine_of_step (h : es[j]? = some s) (hs : step s = .next t) : stepEngine j es = .next (es.set j t) := by
  simp only [stepEngine, h, hs]

/-- A step of engine `j` goes on, is that engine's own step, and is a step of no other engine (R66, R212). -/
theorem stepEngine_goes (j : Nat) (es : List State) :
    ∃ es', stepEngine j es = .next es' ∧ es'.length = es.length ∧ (∀ k ≠ j, es'[k]? = es[k]?) ∧
      ∀ s, es[j]? = some s → ∃ t, step s = .next t ∧ es'[j]? = some t := by
  cases h : es[j]? with
  | none => exact ⟨es, stepEngine_of_none h, rfl, fun _ _ => rfl, nofun⟩
  | some s =>
    obtain ⟨t, ht⟩ := step_goes s
    refine ⟨es.set j t, stepEngine_of_step h ht, List.length_set, fun k hk => List.getElem?_set_ne hk.symm, ?_⟩
    rintro _ ⟨⟩
    obtain ⟨hj, -⟩ := List.getElem?_eq_some_iff.mp h
    exact ⟨t, ht, List.getElem?_set_self hj⟩

theorem runEngines_cons (h : stepEngine j es = .next es') (rest : List Nat) :
    runEngines (j :: rest) es = runEngines rest es' := by
  simp only [runEngines, h]

/-- Settles O22, by induction on the schedule: its first step is the first step of the engine it names, and every other engine
still stands where it stood. -/
theorem interleavedEnginesComputeAsIfAlone : Obligations.InterleavedEnginesComputeAsIfAlone := by
  intro schedule
  induction schedule with
  | nil => exact fun es => ⟨es, rfl, rfl, fun j s hs => ⟨s, rfl, hs⟩⟩
  | cons j rest ih =>
    intro es
    obtain ⟨es₁, hstep, hlen₁, hother, hself⟩ := stepEngine_goes j es
    obtain ⟨es', hrun, hlen, halone⟩ := ih es₁
    refine ⟨es', (runEngines_cons hstep rest).trans hrun, hlen.trans hlen₁, fun k s hs => ?_⟩
    by_cases hk : k = j
    · subst hk
      obtain ⟨s₁, hs₁, hk₁⟩ := hself s hs
      rw [List.count_cons_self, run_succ_of_step core _ s s₁ hs₁]
      exact halone k s₁ hk₁
    · rw [List.count_cons_of_ne (Ne.symm hk)]
      exact halone k s ((hother k hk).trans hs)

end Sys2Proof.Machine

/-! ## The message words of a block (20_memory.md R52) -/

namespace Sys2Proof.Machine

/-- Four bytes to a word. -/
theorem messageWords_length (block : ByteString) : (messageWords block).length = block.length / 4 := by
  match block with
  | [] | [_] | [_, _] | [_, _, _] => simp [messageWords]
  | b0 :: b1 :: b2 :: b3 :: rest =>
    simp only [messageWords, List.length_cons, messageWords_length rest]
    omega

/-- Word `j` is made of the bytes `4j` to `4j + 3`. -/
theorem messageWords_getElem? (block : ByteString) (j : Nat) (h : 4 * j + 3 < block.length) :
    (messageWords block)[j]? = some (le32 block[4 * j] block[4 * j + 1] block[4 * j + 2] block[4 * j + 3]) := by
  induction j generalizing block with
  | zero =>
    match block, h with
    | b0 :: b1 :: b2 :: b3 :: rest, _ => rfl
  | succ j ih =>
    match block, h with
    | b0 :: b1 :: b2 :: b3 :: rest, h => exact ih rest (by simp only [List.length_cons] at h; omega)

/-- Settles O35: word `j` is `LE32` of the block's bytes `4j` to `4j + 3`, and byte `m` of `LE32` is its `m`-th argument. -/
theorem messageWordsAreLittleEndian : Obligations.MessageWordsAreLittleEndian := by
  intro block hlen
  refine ⟨by rw [messageWords_length, hlen], fun j hj m hm => ?_⟩
  have hword := messageWords_getElem? block j (by omega)
  have hbyte : block[4 * j + m]? = some block[4 * j + m] := List.getElem?_eq_getElem (by omega)
  refine ⟨_, _, hword, hbyte, ?_⟩
  obtain ⟨h0, h1, h2, h3⟩ := le32_bytes block[4 * j] block[4 * j + 1] block[4 * j + 2] block[4 * j + 3]
  interval_cases m
  · exact h0
  · exact h1
  · exact h2
  · exact h3

end Sys2Proof.Machine

/-! ## What INIT and PROCESS do to the stream (40_digest_engine.md sections 1 to 4) -/

namespace Sys2Proof.Machine

variable {s t : State} {p : ByteString}

/-- Settles O23: the four constants, the refusal of a payload by the decoder, and that INIT reads nothing it writes. -/
theorem initGivesAFreshDigestState : Obligations.InitGivesAFreshDigestState := by
  refine ⟨fun s => rfl, rfl, fun x p => by simp [checkPayload], fun s t u hs ht => ?_⟩
  rw [exec_init] at hs ht
  cases hs
  cases ht
  exact ⟨rfl, rfl, rfl, rfl, rfl⟩

theorem phaseOf_ne_active (h : s.valid = false ∨ s.finalized = true) : phaseOf s ≠ .active := by
  rw [ne_eq, phaseOf_eq_active]
  rintro ⟨hv, hf⟩
  simp [hv, hf] at h

@[simp] theorem phaseOf_absorb (p : ByteString) (s : State) : phaseOf (absorb p s) = phaseOf s :=
  phaseOf_congr s (absorb p s) (absorb_valid p s) (absorb_finalized p s)

/-- PROCESS without a complete block only appends and counts (R111 with `k = 0`). -/
theorem absorb_of_short (h : (s.pending ++ p).length < 64) :
    absorb p s =
      { s with pending := s.pending ++ p, totalLength := add64 s.totalLength (BitVec.ofNat 64 p.length) } := by
  simp only [absorb, Config.blockBytes, Nat.div_eq_of_lt h, compressBlocks, slice, Nat.mul_zero, List.drop_zero,
    Nat.sub_zero, List.take_length]

/-- Settles O24: PROCESS is `absorb` in phase ACTIVE and `InvalidState` in the other two. -/
theorem processCompressesEveryCompleteBlock : Obligations.ProcessCompressesEveryCompleteBlock := by
  refine fun s p => ⟨rfl, fun hact => ?_, fun href => exec_process_refused (phaseOf_ne_active href)⟩
  refine ⟨_, exec_process_active ((phaseOf_eq_active s).mpr hact), absorb_acc p s, absorb_pending p s,
    absorb_totalLength p s, absorb_finalized p s, absorb_valid p s, absorb_inputs p s, ?_, fun hshort => ?_⟩
  · rw [respond_responses, absorb_responses]
  · rw [absorb_of_short hshort]
    exact ⟨rfl, rfl, rfl, rfl, rfl, rfl⟩

/-! ### Chunks of one stream -/

/-- PROCESS of no bytes leaves the DigestState. -/
theorem absorb_nil_sameDigest (h : s.pending.length < 64) : SameDigest (absorb [] s) s := by
  rw [absorb_of_short (by simpa using h)]
  exact ⟨rfl, (List.append_nil _).symm, (BitVec.add_zero _).symm, rfl, rfl⟩

/-- PROCESS of two byte strings in a row is PROCESS of their concatenation: the complete blocks of the first stay blocks of the
whole, and the rest begins where they end. -/
theorem absorb_absorb_sameDigest (p q : ByteString) (s : State) :
    SameDigest (absorb q (absorb p s)) (absorb (p ++ q) s) := by
  have hfit : 64 * ((s.pending ++ p).length / 64) ≤ (s.pending ++ p).length := Nat.mul_div_le _ _
  have hrest : (s.pending ++ (p ++ q)).drop (64 * ((s.pending ++ p).length / 64)) = (absorb p s).pending ++ q := by
    rw [absorb_pending, ← List.append_assoc, List.drop_append_of_le_length hfit]
  have hcount : (s.pending ++ (p ++ q)).length / 64 =
      (s.pending ++ p).length / 64 + ((absorb p s).pending ++ q).length / 64 := by
    rw [← hrest, List.length_drop, ← List.append_assoc, List.length_append (as := s.pending ++ p)]
    omega
  refine ⟨?_, ?_, ?_, ?_, ?_⟩
  · rw [absorb_acc, absorb_acc, hcount, chain_add, hrest, ← List.append_assoc, chain_append _ _ _ _ hfit, absorb_acc]
  · rw [absorb_pending, absorb_pending q, hcount, Nat.mul_add, ← List.drop_drop, hrest]
  · simp [add64, BitVec.ofNat_add, BitVec.add_assoc]
  · simp
  · simp

theorem execAll_cons {i : Instr} (h : exec i s = .next t) (rest : List Instr) :
    execAll (i :: rest) s = execAll rest t := by
  simp only [execAll, h]

/-- In phase ACTIVE the PROCESS of every chunk is answered OK, and the DigestState they end in is that of one PROCESS of their
concatenation (R113). -/
theorem execAll_process_append (chunks : List ByteString) (hs : phaseOf s = .active) (hp : s.pending.length < 64) :
    ∃ t, (∀ rest, execAll (chunks.map Instr.process ++ rest) s = execAll rest t) ∧ phaseOf t = .active ∧
      t.responses = s.responses ++ chunks.map (fun _ => .ok []) ∧ SameDigest t (absorb chunks.flatten s) := by
  induction chunks generalizing s with
  | nil => exact ⟨s, fun _ => rfl, hs, (List.append_nil _).symm, (absorb_nil_sameDigest hp).symm⟩
  | cons c chunks ih =>
    have hp' : (respond (.ok []) (absorb c s)).pending.length < 64 := by
      rw [respond_pending, absorb_pending_length]
      exact Nat.mod_lt _ (by decide)
    obtain ⟨t, hrun, ht, hresp, hdig⟩ := ih (s := respond (.ok []) (absorb c s)) (by simpa using hs) hp'
    refine ⟨t, fun rest => ?_, ht, by simp [hresp], hdig.trans ?_⟩
    · rw [← hrun rest]
      exact execAll_cons (exec_process_active hs) _
    · have hanswer : SameDigest (respond (.ok []) (absorb c s)) (absorb c s) := by simp [SameDigest.refl]
      exact (hanswer.absorb chunks.flatten).trans (absorb_absorb_sameDigest c chunks.flatten s)

/-- Settles O26: the chunks and their concatenation absorb to the same DigestState. -/
theorem chunkingTheStreamDoesNotMatter : Obligations.ChunkingTheStreamDoesNotMatter := by
  intro s chunks hs hp
  obtain ⟨t, hrun, -, -, hdig⟩ := execAll_process_append chunks hs hp
  refine ⟨t, _, ?_, exec_process_active hs, (sameDigest_respond_right _ _ _).mpr hdig⟩
  simpa [execAll] using hrun []

/-- Settles O34: INIT makes every state's DigestState that of the fresh state ONESHOT computes on, the chunks absorb as their concatenation
does, and FINISH depends on the DigestState only. -/
theorem oneshotEqualsEveryChunkedStream : Obligations.OneshotEqualsEveryChunkedStream := by
  intro s s' chunks
  obtain ⟨t, hrun, ht, hresp, hdig⟩ :=
    execAll_process_append (s := respond (.ok []) (freshDigest s)) chunks rfl (by simp)
  have hinit : SameDigest (respond (.ok []) (freshDigest s)) (freshDigest State.reset) := ⟨rfl, rfl, rfl, rfl, rfl⟩
  have hdigest : md5 chunks.flatten = serialize (finishDigest t).acc :=
    congrArg serialize (hdig.trans (hinit.absorb chunks.flatten)).finishDigest.1
  refine ⟨respond (.ok (serialize (finishDigest t).acc)) (finishDigest t), _, ?_, ?_, rfl⟩
  · rw [execAll_cons (exec_init s), hrun, execAll_cons (exec_finish_active ht)]
    rfl
  · simp [hresp, hdigest]

end Sys2Proof.Machine

/-! ## What FINISH pads, compresses and answers (40_digest_engine.md section 3) -/

namespace Sys2Proof.Machine

variable {pending : ByteString}

/-- Settles O27: FINISH is `finishDigest` with the answer of its accumulators in phase ACTIVE, and `InvalidState` in EMPTY. -/
theorem finishPadsCompressesAndAnswersTheDigest : Obligations.FinishPadsCompressesAndAnswersTheDigest := by
  refine fun s => ⟨rfl, fun hact hp => ?_, fun hv => exec_finish_empty ((phaseOf_eq_empty s).mpr hv)⟩
  refine ⟨_, padTail s.pending s.totalLength, exec_finish_active ((phaseOf_eq_active s).mpr hact), rfl, ?_,
    finishDigest_acc s, finishDigest_finalized s, finishDigest_pending s, finishDigest_totalLength s, finishDigest_valid s,
    finishDigest_inputs s, ?_⟩
  · rw [padTail_length _ _ hp]
    split
    · exact .inl rfl
    · exact .inr rfl
  · rw [respond_responses, respond_acc, finishDigest_responses]

/-! ### The padded tail -/

/-- The tail, read as the pending bytes and what follows them. -/
theorem padTail_eq (pending : ByteString) (n : Dword) :
    padTail pending n = pending ++ 0x80#8 :: (zeros (padZeros pending.length) ++ bytesLE64 (bitLength n)) := by
  simp only [padTail, List.append_assoc, List.cons_append, List.nil_append]

/-- The number of zeros reaches 56 modulo 64, and no smaller number does (R116). -/
theorem padZeros_isLeast {l : Nat} (h : l < 64) :
    (l + 1 + padZeros l) % 64 = 56 ∧ ∀ y < padZeros l, (l + 1 + y) % 64 ≠ 56 := by
  unfold padZeros
  split
  · exact ⟨by omega, fun y hy => by omega⟩
  · exact ⟨by omega, fun y hy => by omega⟩

theorem bytesLE64_getElem? (x : Dword) {m : Nat} (hm : m < 8) : (bytesLE64 x)[m]? = some (x.extractLsb' (8 * m) 8) := by
  interval_cases m <;> rfl

/-- The last 8 bytes of the tail are the bit length (R53). -/
theorem padTail_getElem?_bitLength (pending : ByteString) (n : Dword) {m : Nat} (hm : m < 8) :
    (padTail pending n)[(padTail pending n).length - 8 + m]? = some ((bitLength n).extractLsb' (8 * m) 8) := by
  have hstart : (padTail pending n).length - 8 = (pending ++ [0x80#8] ++ zeros (padZeros pending.length)).length := by
    rw [padTail, List.length_append, bytesLE64_length, Nat.add_sub_cancel]
  rw [hstart, padTail, List.getElem?_append_right (Nat.le_add_right _ _), Nat.add_sub_cancel_left]
  exact bytesLE64_getElem? _ hm

/-- Settles O29, with the model's number of zeros. -/
theorem paddingReachesFiftySixModuloSixtyFour : Obligations.PaddingReachesFiftySixModuloSixtyFour := by
  intro pending n hp
  obtain ⟨hreach, hleast⟩ := padZeros_isLeast hp
  have hz : padZeros pending.length = if pending.length ≤ 55 then 55 - pending.length else 119 - pending.length := by
    simp only [padZeros, Nat.lt_succ_iff]
  have hlen : (padTail pending n).length = if pending.length ≤ 55 then 64 else 128 := by
    simp only [padTail_length pending n hp, Nat.lt_succ_iff]
  refine ⟨padZeros pending.length, padTail_eq pending n, hreach, hleast, hz, by omega, ?_, hlen, fun m hm => ?_⟩
  · rw [hz]
    split <;> omega
  · have hoffset : (padTail pending n).length - 64 + 56 = (padTail pending n).length - 8 := by
      rw [hlen]
      split <;> rfl
    rw [hoffset]
    exact padTail_getElem?_bitLength pending n hm

/-! ### One block or two -/

theorem slice_zero_append (u v : ByteString) {k : Nat} (h : u.length = k) : slice (u ++ v) 0 k = u :=
  List.take_left' h

theorem slice_append_right (u v : ByteString) {k l : Nat} (hu : u.length = k) (hv : v.length = l - k) :
    slice (u ++ v) k l = v := by
  rw [slice, List.drop_left' hu, ← hv, List.take_length]

/-- From 56 pending bytes on the zeros run over the end of the first block (R117). -/
theorem padTail_eq_two_blocks (n : Dword) (h56 : 56 ≤ pending.length) (h64 : pending.length < 64) :
    padTail pending n = (pending ++ [0x80#8] ++ zeros (63 - pending.length)) ++ (zeros 56 ++ bytesLE64 (bitLength n)) := by
  have hz : padZeros pending.length = 63 - pending.length + 56 := by
    rw [padZeros, if_neg (by omega)]
    omega
  simp only [padTail, zeros, hz, ← List.replicate_append_replicate, List.append_assoc]

/-- Settles O30: the length of the tail, its two blocks, and what FINISH runs over them. -/
theorem tailIsOneBlockOrTwo : Obligations.TailIsOneBlockOrTwo := by
  intro pending n hp
  have hlen := padTail_length pending n hp
  refine ⟨?_, ?_, ?_, fun h56 => ?_, ?_⟩
  · rw [hlen]
    split <;> omega
  · rw [hlen]
    split <;> omega
  · simp only [padTail_eq, List.getElem?_append_right le_rfl, Nat.sub_self, List.getElem?_cons_zero]
  · have hfirst : (pending ++ [0x80#8] ++ zeros (63 - pending.length)).length = 64 := by
      simp only [zeros, List.length_append, List.length_singleton, List.length_replicate]
      omega
    rw [padTail_eq_two_blocks n h56 hp]
    exact ⟨slice_zero_append _ _ hfirst, slice_append_right _ _ hfirst rfl⟩
  · rintro s t rfl rfl hs hexec
    rw [exec_finish_active hs] at hexec
    cases hexec
    rw [respond_acc, finishDigest_acc]
    by_cases h55 : s.pending.length ≤ 55
    · rw [if_pos (Nat.lt_succ_iff.mpr h55)] at hlen
      rw [if_neg (by omega), if_pos h55, slice, List.drop_zero, List.take_of_length_le hlen.le]
    · rw [if_neg (by omega)] at hlen
      rw [if_pos hlen, if_neg h55]

/-! ### The digest -/

/-- Settles O32: the 16 bytes, accumulator by accumulator. -/
theorem serializeIsLittleEndianInOrderABCD : Obligations.SerializeIsLittleEndianInOrderABCD := by
  refine ⟨fun acc => ⟨serialize_length acc, rfl, fun m hm => ?_⟩, by decide⟩
  interval_cases m <;> exact ⟨rfl, rfl, rfl, rfl⟩

end Sys2Proof.Machine

/-! ## The rotations (41_block_compression.md section 5) -/

namespace Sys2Proof.Machine

/-- The rotate amounts of the step control table, four for each stage in the order of its steps (R145 to R148). -/
def romRotateAmounts : List Nat := [7, 12, 17, 22] ++ [5, 9, 14, 20] ++ [4, 11, 16, 23] ++ [6, 10, 15, 21]

/-- Within a stage the amount depends on the step index modulo 4 only. -/
theorem romWord_rotate (i : Fin 64) :
    romRotateAmounts[4 * (i.val / 16) + i.val % 4]? = some (cwS (romWord i)).toNat := by
  revert i
  decide +kernel

/-- The rotate amounts of `ROM` are those of the 16 places of the list: the first four steps of a stage have its four. -/
theorem exists_romWord_rotate_iff (a : Nat) : (∃ i : Fin 64, (cwS (romWord i)).toNat = a) ↔ a ∈ romRotateAmounts := by
  constructor
  · rintro ⟨i, rfl⟩
    exact List.mem_of_getElem? (romWord_rotate i)
  · intro ha
    obtain ⟨k, hk, rfl⟩ := List.mem_iff_getElem.mp ha
    have hk16 : k < 16 := hk
    refine ⟨⟨16 * (k / 4) + k % 4, by omega⟩, ?_⟩
    have hrow := romWord_rotate ⟨16 * (k / 4) + k % 4, by omega⟩
    have hplace : 4 * ((16 * (k / 4) + k % 4) / 16) + (16 * (k / 4) + k % 4) % 4 = k := by omega
    simp only [hplace, List.getElem?_eq_getElem hk, Option.some.injEq] at hrow
    exact hrow.symm

/-- The shift formula of R11 is the rotation of bit vectors. -/
theorem rotl32_eq_rotateLeft (x : Word) {r : Nat} (hr : r < 32) : rotl32 x r = x.rotateLeft r := by
  rw [rotl32, BitVec.rotateLeft_def, Nat.mod_eq_of_lt hr]

/-- A rotation moves bit `j` to place `j + r` modulo 32 (R154). -/
theorem rotl32_getLsbD (x : Word) {r j : Nat} (hr : r < 32) (hj : j < 32) :
    (rotl32 x r).getLsbD ((j + r) % 32) = x.getLsbD j := by
  rw [rotl32_eq_rotateLeft x hr, BitVec.getLsbD_rotateLeft, Nat.mod_eq_of_lt hr]
  by_cases hwrap : j + r < 32
  · have hplace : (j + r) % 32 = j + r := Nat.mod_eq_of_lt hwrap
    simp [hplace, hwrap]
  · have hplace : (j + r) % 32 = j + r - 32 := by omega
    have hlow : j + r - 32 < r := by omega
    have hback : 32 - r + (j + r - 32) = j := by omega
    simp [hplace, hlow, hback]

/-- Settles O41: the amounts row by row of the table, and every amount below 32 only moves bits. -/
theorem rotationsMoveBitsByTheTableAmounts : Obligations.RotationsMoveBitsByTheTableAmounts := by
  refine ⟨fun a => (exists_romWord_rotate_iff a).trans ?_, fun x r _ hr j hj => rotl32_getLsbD x (by omega) hj, by decide⟩
  have hperm : romRotateAmounts.Perm [4, 5, 6, 7, 9, 10, 11, 12, 14, 15, 16, 17, 20, 21, 22, 23] := by decide
  exact hperm.mem_iff

end Sys2Proof.Machine

/-! ## The 64 steps of a block compression on the machine (41_block_compression.md section 4) -/

namespace Sys2Proof.Machine

variable {n : Nat} {s : State}

theorem nextIndex_ofNat (hn : n < 63) : nextIndex (Fin.ofNat 64 n) = Fin.ofNat 64 (n + 1) := by
  have hval : (Fin.ofNat 64 n).val = n := Nat.mod_eq_of_lt (by omega)
  rw [nextIndex, hval, if_neg (by omega)]

/-- Started at index 0, the next step after `n` steps is step `n` (R156). -/
theorem runSteps_stepIndex_of_zero (hs : s.stepIndex = 0) (hn : n < 64) : (runSteps n s).stepIndex = Fin.ofNat 64 n := by
  cases n with
  | zero => exact hs
  | succ n => rw [runSteps_stepIndex, nextIndex_ofNat (by omega)]

/-- A machine step inside a block compression, with no reset event next, is the micro-operation at the step index and the
sequencer's part after it. -/
theorem step_running (hr : s.running = true) (hi : NoResetNext s) :
    step s = .next (afterStep s.stepIndex (runStep s.stepIndex s)) :=
  step_control (fetch_control s hr hi)

/-- The machine step after `n` of the 64 steps is step `n` with the sequencer's part after it. -/
theorem step_runSteps (hs : s.stepIndex = 0) (hr : s.running = true) (hi : NoResetNext s) (hn : n < 64) :
    step (runSteps n s) = .next (afterStep (Fin.ofNat 64 n) (runSteps (n + 1) s)) := by
  have hi' : NoResetNext (runSteps n s) := by simpa [NoResetNext] using hi
  rw [step_running (by simpa using hr) hi', runSteps_stepIndex_of_zero hs hn, runSteps_succ]

/-- Before the last step the machine has made the datapath's steps and nothing more. -/
theorem run_eq_runSteps (hs : s.stepIndex = 0) (hr : s.running = true) (hi : NoResetNext s) (hn : n < 64) :
    Host.Core.run Sys2Proof.core n s = .next (runSteps n s) := by
  induction n with
  | zero => rfl
  | succ n ih =>
    refine run_snoc n s _ _ (ih (by omega)) ?_
    have hval : (Fin.ofNat 64 n).val = n := Nat.mod_eq_of_lt (by omega)
    rw [step_runSteps hs hr hi (by omega), afterStep, if_neg (by omega)]

/-- The run of a whole block compression: step 63 is followed by the add-back, which ends it (R152, R156). -/
theorem run_beginBlock (block : ByteString) (hi : NoResetNext s) :
    Host.Core.run Sys2Proof.core 64 (beginBlock block s) = .next (compressBlock block s) := by
  have h63 := run_eq_runSteps (n := 63) (s := beginBlock block s) rfl rfl hi (by decide)
  rw [compressBlock]
  exact run_snoc 63 _ _ _ h63 (step_runSteps rfl rfl hi (by decide))

/-- The accumulators after a block compression are those before it, with the last working values added back (R152). -/
theorem compressBlock_acc_eq_addQuad (block : ByteString) (s : State) :
    (compressBlock block s).acc = addQuad s.acc (compressBlock block s).w := by
  rw [compressBlock_acc, compressBlock_w, compress]

/-- Settles O42: before step 63 the run is the datapath's steps, after it the whole block compression. -/
theorem sixtyFourMachineStepsAreOneBlockCompression : Obligations.SixtyFourMachineStepsAreOneBlockCompression := by
  intro block s hi
  refine ⟨fun n hn => ?_, ?_⟩
  · refine ⟨_, run_eq_runSteps rfl rfl hi hn, runSteps_running n _, ?_, runSteps_blk n _, runSteps_acc n _, runSteps_w n _⟩
    rw [runSteps_stepIndex_of_zero rfl hn]
    exact Nat.mod_eq_of_lt hn
  · have hacc := compressBlock_acc_eq_addQuad block s
    exact ⟨_, run_beginBlock block hi, compressBlock_running block s, compressBlock_acc block s,
      congrArg Quad.a hacc, congrArg Quad.b hacc, congrArg Quad.c hacc, congrArg Quad.d hacc,
      compressBlock_pending block s, compressBlock_totalLength block s, compressBlock_finalized block s,
      compressBlock_valid block s, compressBlock_inputs block s, compressBlock_responses block s⟩

end Sys2Proof.Machine

/-! ## The Signature Codec (42_signature_codec.md) -/

namespace Sys2Proof.Machine

variable {d p out : ByteString} {c x : Byte}

/-! ### The ends of ENCODE, DECODE and ONESHOT -/

theorem exec_oneshot (p : ByteString) (s : State) : exec (.oneshot p) s = .next (respond (.ok (md5 p)) s) := rfl

theorem exec_encode_digest (h : d.length = 16) (s : State) :
    exec (.encode d) s = .next (respond (.ok (encodeHex d)) s) := if_pos h

theorem exec_encode_refused (h : d.length ≠ 16) (s : State) :
    exec (.encode d) s = .next (raiseErr .illegalCommand s) := if_neg h

theorem exec_decode_some (h : decodeHex p = some out) (s : State) :
    exec (.decode p) s = .next (respond (.ok out) s) := by
  simp only [exec, execDecode, h]

theorem exec_decode_none (h : decodeHex p = none) (s : State) :
    exec (.decode p) s = .next (raiseErr .malformedInput s) := by
  simp only [exec, execDecode, h]

/-- Settles O49: which end a command takes depends on its payload only. -/
theorem codecAndOneshotNeitherReadNorWriteTheEngine : Obligations.CodecAndOneshotNeitherReadNorWriteTheEngine := by
  rintro i ⟨p, rfl | rfl | rfl⟩
  · by_cases h : p.length = 16
    · exact ⟨.ok (encodeHex p), nofun, exec_encode_digest h⟩
    · exact ⟨.error .illegalCommand, by decide, exec_encode_refused h⟩
  · cases h : decodeHex p with
    | some out => exact ⟨.ok out, nofun, exec_decode_some h⟩
    | none => exact ⟨.error .malformedInput, by decide, exec_decode_none h⟩
  · exact ⟨.ok (md5 p), nofun, exec_oneshot p⟩

/-! ### ENCODE: two lowercase characters per byte -/

/-- The alphabet of `hexchar` is `'0'..'9'` and `'a'..'f'` (R182). -/
theorem hexchar_lowercase (n : BitVec 4) :
    0x30 ≤ (hexchar n).toNat ∧ (hexchar n).toNat ≤ 0x39 ∨ 0x61 ≤ (hexchar n).toNat ∧ (hexchar n).toNat ≤ 0x66 := by
  revert n
  decide

theorem highNibble_eq_ofNat (x : Byte) : x.extractLsb' 4 4 = BitVec.ofNat 4 (x.toNat / 16) := by
  rw [BitVec.extractLsb', Nat.shiftRight_eq_div_pow]

theorem lowNibble_eq_ofNat (x : Byte) : x.extractLsb' 0 4 = BitVec.ofNat 4 (x.toNat % 16) :=
  BitVec.eq_of_toNat_eq (by simp)

/-- Characters `2k` and `2k + 1` are those of byte `k` (R180). -/
theorem encodeHex_getElem? {k : Nat} (h : d[k]? = some x) :
    (encodeHex d)[2 * k]? = some (hexchar (x.extractLsb' 4 4)) ∧
      (encodeHex d)[2 * k + 1]? = some (hexchar (x.extractLsb' 0 4)) := by
  induction d generalizing k with
  | nil => simp at h
  | cons y d ih =>
    cases k with
    | zero =>
      obtain rfl : y = x := by simpa using h
      exact ⟨rfl, rfl⟩
    | succ k => exact ih h

theorem exists_hexchar_of_mem_encodeHex (h : c ∈ encodeHex d) : ∃ n, c = hexchar n := by
  induction d with
  | nil => simp [encodeHex] at h
  | cons y d ih =>
    obtain rfl | rfl | h := by simpa [encodeHex] using h
    · exact ⟨_, rfl⟩
    · exact ⟨_, rfl⟩
    · exact ih h

/-- Settles O44, character by character of `encodeHex`. -/
theorem encodeAnswersTwoLowercaseCharactersPerByte : Obligations.EncodeAnswersTwoLowercaseCharactersPerByte := by
  refine ⟨fun d s hd => ⟨rfl, encodeHex d, exec_encode_digest hd s, ?_, fun k hk => ?_, fun c hc => ?_⟩, fun d hd => ?_,
    by decide⟩
  · rw [encodeHex_length, hd]
  · have hbyte := List.getElem?_eq_getElem (l := d) (i := k) (by omega)
    have hchars := encodeHex_getElem? hbyte
    rw [highNibble_eq_ofNat, lowNibble_eq_ofNat] at hchars
    exact ⟨_, hbyte, hchars⟩
  · obtain ⟨n, rfl⟩ := exists_hexchar_of_mem_encodeHex hc
    exact hexchar_lowercase n
  · simp [checkPayload, hd]

/-! ### DECODE: which payloads parse -/

/-- The codes that have a value are the 22 hex codes (R97, R184). -/
theorem hexval_isSome (c : Byte) : (hexval c).isSome ↔ HexCode c := by
  unfold hexval HexCode
  split_ifs <;> simp <;> omega

/-- A parse of a pair and a rest is made of the two characters' values and a parse of the rest. -/
theorem decodePairs_cons_cons_eq_some {hi lo : Byte} {rest : ByteString} :
    decodePairs (hi :: lo :: rest) = some out ↔
      ∃ h l tail, hexval hi = some h ∧ hexval lo = some l ∧ decodePairs rest = some tail ∧ (h ++ l) :: tail = out := by
  rw [decodePairs]
  split
  case h_1 a b tail ha hb htail => simp [ha, hb, htail]
  case h_2 hfail => exact iff_of_false nofun fun ⟨a, b, tail, ha, hb, htail, _⟩ => hfail a b tail ha hb htail

/-- The pairwise parse succeeds exactly on the strings of hex codes of even length. -/
theorem decodePairs_isSome (p : ByteString) : (decodePairs p).isSome ↔ Even p.length ∧ ∀ c ∈ p, HexCode c := by
  induction p using List.twoStepInduction with
  | nil => simp [decodePairs]
  | singleton c => simp [decodePairs]
  | cons_cons hi lo rest ih _ =>
    have hpair : (decodePairs (hi :: lo :: rest)).isSome ↔
        (hexval hi).isSome ∧ (hexval lo).isSome ∧ (decodePairs rest).isSome := by
      simp [Option.isSome_iff_exists, decodePairs_cons_cons_eq_some]
    rw [hpair, ih, hexval_isSome, hexval_isSome]
    simp [Nat.even_add_one, and_left_comm]

/-- DECODE accepts the well-formed strings (R184). -/
theorem decodeHex_isSome (p : ByteString) : (decodeHex p).isSome ↔ WellFormedSignature p := by
  unfold decodeHex WellFormedSignature
  split
  case isTrue h => exact (decodePairs_isSome p).trans (and_congr_left' ⟨fun _ => h, fun _ => h ▸ ⟨16, rfl⟩⟩)
  case isFalse h => simp [h]

theorem decodePairs_length (h : decodePairs p = some out) : p.length = 2 * out.length := by
  induction p using List.twoStepInduction generalizing out with
  | nil => cases h; rfl
  | singleton c => cases h
  | cons_cons hi lo rest ih _ =>
    obtain ⟨_, _, tail, -, -, htail, rfl⟩ := decodePairs_cons_cons_eq_some.mp h
    simp [ih htail, Nat.mul_add]

/-- Two nibbles side by side are the number with these two digits. -/
theorem append_nibbles_eq_ofNat (h l : BitVec 4) : h ++ l = BitVec.ofNat 8 (16 * h.toNat + l.toNat) := by
  revert h l
  decide

/-- Byte `k` has the values of characters `2k` and `2k + 1` (R183). -/
theorem decodePairs_getElem? {k : Nat} (h : decodePairs p = some out) (hk : k < out.length) :
    ∃ hi lo a b, p[2 * k]? = some hi ∧ p[2 * k + 1]? = some lo ∧ hexval hi = some a ∧ hexval lo = some b ∧
      out[k]? = some (a ++ b) := by
  induction p using List.twoStepInduction generalizing out k with
  | nil => cases h; cases hk
  | singleton c => cases h
  | cons_cons hi lo rest ih _ =>
    obtain ⟨a, b, tail, ha, hb, htail, rfl⟩ := decodePairs_cons_cons_eq_some.mp h
    cases k with
    | zero => exact ⟨hi, lo, a, b, rfl, rfl, ha, hb, rfl⟩
    | succ k => exact ih htail (Nat.lt_of_succ_lt_succ hk)

theorem decodeHex_eq_some : decodeHex p = some out ↔ p.length = 32 ∧ decodePairs p = some out := by
  simp [decodeHex]

/-- Settles O45: the well-formed payloads are those that parse, and the parse is byte by byte. -/
theorem decodeAnswersTheBytesOrMalformedInput : Obligations.DecodeAnswersTheBytesOrMalformedInput := by
  refine fun p s => ⟨rfl, fun hp => ?_, fun hp => ?_⟩
  · obtain ⟨out, hout⟩ := Option.isSome_iff_exists.mp ((decodeHex_isSome p).mpr hp)
    obtain ⟨hlen, hparse⟩ := decodeHex_eq_some.mp hout
    have hlen16 : out.length = 16 := by
      have := decodePairs_length hparse
      omega
    refine ⟨out, exec_decode_some hout s, hlen16, fun k hk => ?_⟩
    obtain ⟨hi, lo, a, b, hhi, hlo, ha, hb, hbyte⟩ := decodePairs_getElem? hparse (hlen16 ▸ hk)
    exact ⟨hi, lo, a, b, hhi, hlo, ha, hb, append_nibbles_eq_ofNat a b ▸ hbyte⟩
  · exact exec_decode_none (Option.not_isSome_iff_eq_none.mp (mt (decodeHex_isSome p).mp hp)) s

/-! ### DECODE ignores the case of letters -/

theorem hexval_lowerChar (c : Byte) : hexval (lowerChar c) = hexval c := by
  unfold lowerChar
  split
  case isTrue h =>
    have hcode : (c + 0x20#8).toNat = c.toNat + 0x20 := by bv_omega
    have hoffset : c.toNat + 0x20 - 0x61 = c.toNat - 0x41 := by omega
    rw [hexval, hexval, hcode, if_neg (by omega), if_pos (by omega), if_neg (by omega), if_neg (by omega), if_pos h, hoffset]
  case isFalse => rfl

theorem decodePairs_map_lowerChar (p : ByteString) : decodePairs (p.map lowerChar) = decodePairs p := by
  induction p using List.twoStepInduction with
  | nil => rfl
  | singleton c => rfl
  | cons_cons hi lo rest ih _ => simp only [List.map_cons, decodePairs, hexval_lowerChar, ih]

theorem decodeHex_map_lowerChar (p : ByteString) : decodeHex (p.map lowerChar) = decodeHex p := by
  simp only [decodeHex, List.length_map, decodePairs_map_lowerChar]

/-- Settles O47: a letter and its lowercase form have one value, so the parses agree. -/
theorem decodeIgnoresTheCaseOfLetters : Obligations.DecodeIgnoresTheCaseOfLetters := by
  refine ⟨fun p s => ?_, by decide⟩
  simp only [exec, execDecode, decodeHex_map_lowerChar]

end Sys2Proof.Machine

/-! ## What a command answers (60_exceptions.md R200 to R202, R214) -/

namespace Sys2Proof.Machine

variable {i : Instr} {p d : ByteString} {s t : State} {o : Host.Outcome State Fault Refusal} {r r' : Response}

/-- The outcome `o` of something done in state `s` is a next state with exactly one new response, `r` (R85). -/
def Answers (s : State) (o : Host.Outcome State Fault Refusal) (r : Response) : Prop :=
  ∃ t, o = .next t ∧ t.responses = s.responses ++ [r]

theorem Answers.unique (h : Answers s o r) (h' : Answers s o r') : r = r' := by
  obtain ⟨t, rfl, ht⟩ := h
  obtain ⟨t', hnext, ht'⟩ := h'
  cases hnext
  simpa using ht.symm.trans ht'

theorem answers_respond (h : t.responses = s.responses) : Answers s (.next (respond r t)) r :=
  ⟨_, rfl, congrArg (· ++ [r]) h⟩

/-! ### Each command -/

theorem answers_init (s : State) : Answers s (exec .init s) (.ok []) :=
  exec_init s ▸ answers_respond (freshDigest_responses s)

theorem answers_process_active (h : phaseOf s = .active) : Answers s (exec (.process p) s) (.ok []) :=
  exec_process_active h ▸ answers_respond (absorb_responses p s)

theorem answers_process_refused (h : phaseOf s ≠ .active) :
    Answers s (exec (.process p) s) (.error .invalidState) :=
  exec_process_refused h ▸ answers_respond rfl

/-- FINISH answers a digest wherever there is a DigestState (R115, R121). -/
theorem answers_finish (h : phaseOf s ≠ .empty) : ∃ data, Answers s (exec .finish s) (.ok data) := by
  cases hs : phaseOf s with
  | empty => exact absurd hs h
  | active => exact ⟨_, exec_finish_active hs ▸ answers_respond (finishDigest_responses s)⟩
  | final => exact ⟨_, exec_finish_final hs ▸ answers_respond rfl⟩

theorem answers_finish_empty (h : phaseOf s = .empty) : Answers s (exec .finish s) (.error .invalidState) :=
  exec_finish_empty h ▸ answers_respond rfl

theorem answers_oneshot (p : ByteString) (s : State) : Answers s (exec (.oneshot p) s) (.ok (md5 p)) :=
  exec_oneshot p s ▸ answers_respond rfl

theorem answers_encode_digest (h : d.length = 16) (s : State) : Answers s (exec (.encode d) s) (.ok (encodeHex d)) :=
  exec_encode_digest h s ▸ answers_respond rfl

theorem answers_encode_refused (h : d.length ≠ 16) (s : State) :
    Answers s (exec (.encode d) s) (.error .illegalCommand) :=
  exec_encode_refused h s ▸ answers_respond rfl

theorem answers_decode_wellFormed (h : WellFormedSignature p) (s : State) :
    ∃ data, Answers s (exec (.decode p) s) (.ok data) := by
  obtain ⟨out, hout⟩ := Option.isSome_iff_exists.mp ((decodeHex_isSome p).mpr h)
  exact ⟨out, exec_decode_some hout s ▸ answers_respond rfl⟩

theorem exec_decode_malformed (h : ¬ WellFormedSignature p) (s : State) :
    exec (.decode p) s = .next (raiseErr .malformedInput s) :=
  exec_decode_none (Option.not_isSome_iff_eq_none.mp (mt (decodeHex_isSome p).mp h)) s

theorem answers_decode_malformed (h : ¬ WellFormedSignature p) (s : State) :
    Answers s (exec (.decode p) s) (.error .malformedInput) :=
  exec_decode_malformed h s ▸ answers_respond rfl

/-- A step micro-operation answers nothing (R143). -/
theorem not_answers_runStep (k : Fin 64) (s : State) : ¬ Answers s (.next (runStep k s)) r := by
  rintro ⟨_, ⟨⟩, hr⟩
  simp at hr

/-- Settles O19: by uniqueness of the answer, no instruction but DECODE can have this one. -/
theorem onlyDecodeRaisesMalformedInput : Obligations.OnlyDecodeRaisesMalformedInput := by
  refine ⟨fun i s t hi hr => ?_, fun p s hp => exec_decode_malformed hp s, rfl⟩
  have h : Answers s (exec i s) (.error .malformedInput) := ⟨t, hi, hr⟩
  cases i with
  | init => cases h.unique (answers_init s)
  | process p =>
    by_cases hs : phaseOf s = .active
    · cases h.unique (answers_process_active hs)
    · cases h.unique (answers_process_refused hs)
  | finish =>
    by_cases hs : phaseOf s = .empty
    · cases h.unique (answers_finish_empty hs)
    · obtain ⟨data, hok⟩ := answers_finish hs
      cases h.unique hok
  | oneshot p => cases h.unique (answers_oneshot p s)
  | encode d =>
    by_cases hd : d.length = 16
    · cases h.unique (answers_encode_digest hd s)
    · cases h.unique (answers_encode_refused hd s)
  | decode p =>
    refine ⟨p, rfl, fun hp => ?_⟩
    obtain ⟨data, hok⟩ := answers_decode_wellFormed hp s
    cases h.unique hok
  | _ => exact absurd h (not_answers_runStep _ s)

/-! ### Each packet -/

/-- A packet decodes to one of the six commands, never to a step micro-operation (R83). -/
theorem decodePacket_ok_cases {q : Packet} (h : decodePacket q = .ok i) :
    i = .init ∨ i = .finish ∨ ∃ p, i = .process p ∨ i = .encode p ∨ i = .decode p ∨ i = .oneshot p := by
  unfold decodePacket at h
  split at h
  · cases h
  · split at h
    · exact .inl ((checkPayload_eq_ok _ _ _).mp h).2
    · cases h
      exact .inr (.inr ⟨_, .inl rfl⟩)
    · exact .inr (.inl ((checkPayload_eq_ok _ _ _).mp h).2)
    · cases h
      exact .inr (.inr ⟨_, .inr (.inr (.inr rfl))⟩)
    · exact .inr (.inr ⟨_, .inr (.inl ((checkPayload_eq_ok _ _ _).mp h).2)⟩)
    · cases h
      exact .inr (.inr ⟨_, .inr (.inr (.inl rfl))⟩)
    · cases h

/-- A decoded command is answered, in every state (R85). -/
theorem exists_answers_of_decodePacket {q : Packet} (h : decodePacket q = .ok i) (s : State) :
    ∃ r, Answers s (exec i s) r := by
  obtain rfl | rfl | ⟨p, rfl | hi⟩ := decodePacket_ok_cases h
  · exact ⟨_, answers_init s⟩
  · by_cases hs : phaseOf s = .empty
    · exact ⟨_, answers_finish_empty hs⟩
    · obtain ⟨data, hok⟩ := answers_finish hs
      exact ⟨_, hok⟩
  · by_cases hs : phaseOf s = .active
    · exact ⟨_, answers_process_active hs⟩
    · exact ⟨_, answers_process_refused hs⟩
  · obtain ⟨r, -, hr⟩ := codecAndOneshotNeitherReadNorWriteTheEngine i ⟨p, hi⟩
    exact ⟨r, _, hr s, rfl⟩

/-- A packet taken by an idle engine is answered (R85): an illegal one with `IllegalCommand`, any other by its command. -/
theorem exists_answers_step {q : Packet} {rest : List Input} (hf : fetch s = .command q rest) :
    ∃ r, Answers s (step s) r := by
  cases hd : decodePacket q with
  | error e => exact ⟨_, step_illegal hf hd ▸ answers_respond rfl⟩
  | ok i => exact step_command hf hd ▸ exists_answers_of_decodePacket hd { s with inputs := rest }

/-- The answer to a packet that decodes is that of its command; taking the packet changes no response. -/
theorem answers_step {q : Packet} {rest : List Input} (hf : fetch s = .command q rest) (hd : decodePacket q = .ok i)
    (h : Answers { s with inputs := rest } (exec i { s with inputs := rest }) r) : Answers s (step s) r :=
  step_command hf hd ▸ h

/-- Settles O10: the one response of the step is the one that the packet's command gives. -/
theorem operationsThatCannotFailAnswerOk : Obligations.OperationsThatCannotFailAnswerOk := by
  rintro s ⟨cmd, payload⟩ rest hrun hin
  have hf := fetch_command s _ rest hrun hin
  obtain ⟨r, t, ht, hresp⟩ := exists_answers_step hf
  have hanswer {i r'} (hd : decodePacket ⟨cmd, payload⟩ = .ok i)
      (h : Answers { s with inputs := rest } (exec i { s with inputs := rest }) r') : r = r' :=
    Answers.unique ⟨t, ht, hresp⟩ (answers_step hf hd h)
  refine ⟨t, r, ht, hresp, ?init, ?process, ?finish, ?oneshot, ?encode, ?decode⟩
  case init =>
    rintro ⟨⟩
    exact ⟨_, hanswer rfl (answers_init _)⟩
  case process =>
    rintro ⟨⟩ hs
    exact ⟨_, hanswer (decodePacket_process payload) (answers_process_active hs)⟩
  case finish =>
    rintro ⟨⟩ hs
    have hne : phaseOf { s with inputs := rest } ≠ .empty := fun he => by
      obtain h | h := hs
      · cases h.symm.trans he
      · cases h.symm.trans he
    obtain ⟨data, hok⟩ := answers_finish hne
    exact ⟨data, hanswer rfl hok⟩
  case oneshot =>
    rintro ⟨⟩
    exact ⟨_, hanswer (decodePacket_oneshot payload) (answers_oneshot payload _)⟩
  case encode =>
    rintro ⟨⟩ hlen
    have hd : decodePacket ⟨0x04#8, payload⟩ = .ok (.encode payload) := by
      rw [decodePacket_encode, checkPayload_eq_ok]
      exact ⟨beq_iff_eq.mpr hlen, rfl⟩
    exact ⟨_, hanswer hd (answers_encode_digest hlen _)⟩
  case decode =>
    rintro ⟨⟩
    have hd := decodePacket_decode payload
    refine ⟨fun ⟨data, hok⟩ => ?_, fun hp => ?_⟩
    · by_contra hp
      cases hok.symm.trans (hanswer hd (answers_decode_malformed hp _))
    · obtain ⟨data, hok⟩ := answers_decode_wellFormed hp { s with inputs := rest }
      exact ⟨data, hanswer hd hok⟩

end Sys2Proof.Machine

/-! ## The decoder and the encoder (30_encoding.md) -/

namespace Sys2Proof

variable {q : Packet} {i : Instr} {cw : ControlWord}

/-- A step decodes from its entry of `ROM`. -/
theorem decode_encode_of_rom {k : Fin 64} (he : encode i = .controlWord (romWord k))
    (hd : decodeControlWord (romWord k) = .ok i) : decode (encode i) = .ok i :=
  he ▸ hd

theorem decode_encode (i : Instr) (h : i.WellFormed) : decode (encode i) = .ok i := by
  cases i with
  | init => rfl
  | process p => exact decodePacket_process p
  | finish => rfl
  | oneshot p => exact decodePacket_oneshot p
  | encode p => exact (decodePacket_encode p).trans ((checkPayload_eq_ok _ _ _).mpr ⟨h, rfl⟩)
  | decode p => exact decodePacket_decode p
  | _ => exact decode_encode_of_rom rfl (Machine.decodeControlWord_rom _)

/-- Settles O1: the packets command by command, the control words by the rows of `ROM`. -/
theorem decodingAnEncodingGivesTheInstructionBack : Obligations.DecodingAnEncodingGivesTheInstructionBack :=
  decode_encode

/-- With the reserved bits zero the opcode is the whole command byte (R82). -/
theorem cmdOp_toNat_of_cmdRsvd {c : Byte} (h : cmdRsvd c = 0) : (cmdOp c).toNat = c.toNat := by
  conv_rhs => rw [cmd_eq_fields c, h, BitVec.toNat_append]
  simp

/-- The command bytes above 05 are reserved (R88). -/
theorem decodePacket_reserved (h : 5 < q.cmd.toNat) : ∃ e, decodePacket q = .error e := by
  unfold decodePacket
  split
  · exact ⟨_, rfl⟩
  case isFalse hr =>
    rw [cmdOp_toNat_of_cmdRsvd (not_not.mp hr)]
    split
    case h_7 => exact ⟨_, rfl⟩
    all_goals omega

/-- A packet decodes to the instruction whose encoding it is, and to no other. -/
theorem decodePacket_eq_ok : decodePacket q = .ok i ↔ encode i = .packet q ∧ i.WellFormed := by
  constructor
  · intro h
    obtain ⟨c, p⟩ := q
    by_cases hc : 5 < c.toNat
    · obtain ⟨e, he⟩ := decodePacket_reserved (q := ⟨c, p⟩) hc
      cases he.symm.trans h
    obtain ⟨n, hn, rfl⟩ : ∃ n < 6, c = BitVec.ofNat 8 n := ⟨c.toNat, by omega, by simp⟩
    interval_cases n
    · obtain ⟨hp, rfl⟩ := (checkPayload_eq_ok _ _ _).mp ((decodePacket_init p).symm.trans h)
      obtain rfl : p = [] := by simpa using hp
      exact ⟨rfl, rfl⟩
    · cases (decodePacket_process p).symm.trans h
      exact ⟨rfl, rfl⟩
    · obtain ⟨hp, rfl⟩ := (checkPayload_eq_ok _ _ _).mp ((decodePacket_finish p).symm.trans h)
      obtain rfl : p = [] := by simpa using hp
      exact ⟨rfl, rfl⟩
    · cases (decodePacket_oneshot p).symm.trans h
      exact ⟨rfl, rfl⟩
    · obtain ⟨hp, rfl⟩ := (checkPayload_eq_ok _ _ _).mp ((decodePacket_encode p).symm.trans h)
      exact ⟨rfl, hp⟩
    · cases (decodePacket_decode p).symm.trans h
      exact ⟨rfl, rfl⟩
  · rintro ⟨he, hi⟩
    have h := decode_encode i hi
    rwa [he] at h

/-- Each row of the step control table holds the encoding of its step (R92). -/
theorem encode_of_mem_stepTable : ∀ row ∈ stepTable, encode row.2 = .controlWord row.1 ∧ row.2.WellFormed := by
  decide +kernel

theorem mem_stepTable_of_decodeControlWord (h : decodeControlWord cw = .ok i) : (cw, i) ∈ stepTable := by
  unfold decodeControlWord at h
  split at h
  case h_1 row hrow =>
    cases h
    obtain rfl : row.1 = cw := by simpa using List.find?_some hrow
    exact List.mem_of_find?_eq_some hrow
  case h_2 => cases h

/-- Settles O2: a packet by its command byte, a control word by its row of the step control table. -/
theorem everyDecodedObjectIsTheInstructionsEncoding : Obligations.EveryDecodedObjectIsTheInstructionsEncoding := by
  intro e i h
  cases e with
  | packet p => exact decodePacket_eq_ok.mp h
  | controlWord cw => exact encode_of_mem_stepTable _ (mem_stepTable_of_decodeControlWord h)

end Sys2Proof

/-! ## Which packets are commands, and what a step does with them (30_encoding.md section 4, 60_exceptions.md section 3) -/

namespace Sys2Proof.Machine

variable {s : State} {q : Packet} {i : Instr} {rest : List Input}

theorem legalPacket_of_decodePacket (h : decodePacket q = .ok i) : LegalPacket q := by
  obtain ⟨he, hi⟩ := decodePacket_eq_ok.mp h
  obtain rfl | rfl | ⟨p, rfl | rfl | rfl | rfl⟩ := decodePacket_ok_cases h
  · cases he
    exact .inl ⟨rfl, rfl⟩
  · cases he
    exact .inr (.inr (.inl ⟨rfl, rfl⟩))
  · cases he
    exact .inr (.inl rfl)
  · cases he
    exact .inr (.inr (.inr (.inr (.inl ⟨rfl, beq_iff_eq.mp hi⟩))))
  · cases he
    exact .inr (.inr (.inr (.inr (.inr rfl))))
  · cases he
    exact .inr (.inr (.inr (.inl rfl)))

/-- The packets that decode are the well-formed commands (R83, R84). -/
theorem exists_decodePacket_eq_ok_iff (q : Packet) : (∃ i, decodePacket q = .ok i) ↔ LegalPacket q := by
  refine ⟨fun ⟨i, h⟩ => legalPacket_of_decodePacket h, ?_⟩
  obtain ⟨c, p⟩ := q
  rintro (⟨rfl, hp⟩ | rfl | ⟨rfl, hp⟩ | rfl | ⟨rfl, hp⟩ | rfl)
  · exact ⟨.init, by simp [checkPayload_eq_ok, hp]⟩
  · exact ⟨_, decodePacket_process p⟩
  · exact ⟨.finish, by simp [checkPayload_eq_ok, hp]⟩
  · exact ⟨_, decodePacket_oneshot p⟩
  · exact ⟨.encode p, by simp [checkPayload_eq_ok, hp]⟩
  · exact ⟨_, decodePacket_decode p⟩

/-- Every command byte up to 05 has a payload: none, or 16 bytes for ENCODE. -/
theorem exists_legalPacket_iff (c : Byte) : (∃ p, LegalPacket ⟨c, p⟩) ↔ c.toNat ≤ 5 := by
  constructor
  · rintro ⟨p, ⟨rfl, -⟩ | rfl | ⟨rfl, -⟩ | rfl | ⟨rfl, -⟩ | rfl⟩ <;> decide
  · intro hc
    obtain ⟨n, hn, rfl⟩ : ∃ n < 6, c = BitVec.ofNat 8 n := ⟨c.toNat, by omega, by simp⟩
    by_cases h4 : n = 4
    · exact ⟨zeros 16, by simp [LegalPacket, h4, zeros]⟩
    · exact ⟨[], by unfold LegalPacket; interval_cases n <;> simp at h4 ⊢⟩

/-- Settles O3. -/
theorem legalPacketsAreExactlyTheDecodedOnes : Obligations.LegalPacketsAreExactlyTheDecodedOnes :=
  ⟨exists_decodePacket_eq_ok_iff, exists_legalPacket_iff⟩

/-- Settles O4: the encodings of the commands, and the first row of each stage. -/
theorem writtenWordsDecodeToTheirInstructions : Obligations.WrittenWordsDecodeToTheirInstructions :=
  ⟨rfl, decodePacket_process _, rfl, decodePacket_oneshot _, rfl, decodePacket_decode _, decodeControlWord_rom 0,
    decodeControlWord_rom 16, decodeControlWord_rom 32, decodeControlWord_rom 48⟩

theorem decodePacket_of_not_legal (h : ¬ LegalPacket q) : ∃ e, decodePacket q = .error e := by
  cases hd : decodePacket q with
  | ok i => exact absurd (legalPacket_of_decodePacket hd) h
  | error e => exact ⟨e, rfl⟩

/-- Settles O5. -/
theorem stepExecutesTheDecodedCommand : Obligations.StepExecutesTheDecodedCommand :=
  fun s p rest _ hrun hin hd => step_command (fetch_command s p rest hrun hin) hd

/-- Settles O6: the fetched word is the step's own, and `step_running` says what follows. -/
theorem stepExecutesTheFetchedStepMicroOperation : Obligations.StepExecutesTheFetchedStepMicroOperation :=
  fun s hrun hi => ⟨decodeControlWord_rom s.stepIndex, _, exec_stepInstr s.stepIndex s, step_running hrun hi⟩

/-- Settles O7. -/
theorem everyStepAnswersANextState : Obligations.EveryStepAnswersANextState := step_goes

/-- Settles O8: what is no command does not decode, and the step takes the error. -/
theorem anIllegalPacketIsDiscardedWithoutEffect : Obligations.AnIllegalPacketIsDiscardedWithoutEffect := by
  intro s p rest hrun hin hp
  obtain ⟨e, he⟩ := decodePacket_of_not_legal hp
  exact ⟨step_illegal (fetch_command s p rest hrun hin) he, rfl⟩

/-- Settles O11: the reset event is fetched first, in whatever the engine is doing. -/
theorem aResetEventAbandonsEverythingWithoutAResponse : Obligations.AResetEventAbandonsEverythingWithoutAResponse :=
  fun s cut rest hin => ⟨_, step_reset (fetch_reset s cut rest hin), rfl, rfl, rfl, rfl, rfl⟩

/-- Settles O12. -/
theorem anIdleEngineHoldsItsState : Obligations.AnIdleEngineHoldsItsState :=
  fun s hrun hin => step_idle (fetch_idle s hrun hin)

/-! ### Which check decides -/

/-- PROCESS or FINISH in a phase that does not allow it (R201). -/
def LifecycleFails (q : Packet) (s : State) : Prop :=
  q.cmd = 0x01#8 ∧ phaseOf s ≠ .active ∨ q.cmd = 0x02#8 ∧ phaseOf s = .empty

/-- DECODE of a malformed payload (R202). -/
def ContentFails (q : Packet) : Prop := q.cmd = 0x05#8 ∧ ¬ WellFormedSignature q.payload

/-- The second check (R207): the encoding holds, the lifecycle does not. -/
theorem answers_of_lifecycleFails (hd : decodePacket q = .ok i) (h : LifecycleFails q s) :
    Answers s (exec i s) (.error .invalidState) := by
  obtain ⟨c, p⟩ := q
  obtain ⟨rfl, hs⟩ | ⟨rfl, hs⟩ := h
  · cases (decodePacket_process p).symm.trans hd
    exact answers_process_refused hs
  · obtain ⟨-, rfl⟩ := (checkPayload_eq_ok _ _ _).mp ((decodePacket_finish p).symm.trans hd)
    exact answers_finish_empty hs

/-- The third check (R207). -/
theorem answers_of_contentFails (hd : decodePacket q = .ok i) (h : ContentFails q) (s : State) :
    Answers s (exec i s) (.error .malformedInput) := by
  obtain ⟨c, p⟩ := q
  obtain ⟨rfl, hp⟩ := h
  cases (decodePacket_decode p).symm.trans hd
  exact answers_decode_malformed hp s

/-- A command that passes every check is answered OK (R214). -/
theorem answers_ok_of_checks (hd : decodePacket q = .ok i) (hl : ¬ LifecycleFails q s) (hc : ¬ ContentFails q) :
    ∃ data, Answers s (exec i s) (.ok data) := by
  obtain ⟨he, hi⟩ := decodePacket_eq_ok.mp hd
  obtain rfl | rfl | ⟨p, rfl | rfl | rfl | rfl⟩ := decodePacket_ok_cases hd
  · exact ⟨_, answers_init s⟩
  · cases he
    exact answers_finish fun hs => hl (.inr ⟨rfl, hs⟩)
  · cases he
    exact ⟨_, answers_process_active (not_not.mp fun hs => hl (.inl ⟨rfl, hs⟩))⟩
  · exact ⟨_, answers_encode_digest (beq_iff_eq.mp hi) s⟩
  · cases he
    exact answers_decode_wellFormed (not_not.mp fun hp => hc ⟨rfl, hp⟩) s
  · exact ⟨_, answers_oneshot p s⟩

/-- Settles O9: the one response of the step is the one that the first failing check gives. -/
theorem theFirstFailingCheckDecidesTheResponse : Obligations.TheFirstFailingCheckDecidesTheResponse := by
  intro s p rest hrun hin
  have hf := fetch_command s p rest hrun hin
  obtain ⟨r, t, ht, hresp⟩ := exists_answers_step hf
  refine ⟨t, r, ht, hresp, fun hp => ?_, fun hp => ?_⟩
  · obtain ⟨e, he⟩ := decodePacket_of_not_legal hp
    exact Answers.unique ⟨t, ht, hresp⟩ (step_illegal hf he ▸ answers_respond rfl)
  · obtain ⟨i, hd⟩ := (exists_decodePacket_eq_ok_iff p).mpr hp
    have hanswer {r'} (h : Answers { s with inputs := rest } (exec i { s with inputs := rest }) r') : r = r' :=
      Answers.unique ⟨t, ht, hresp⟩ (answers_step hf hd h)
    refine ⟨fun hl => hanswer (answers_of_lifecycleFails hd hl), fun hc => hanswer (answers_of_contentFails hd hc _),
      fun hl hc => ?_⟩
    obtain ⟨data, hok⟩ := answers_ok_of_checks (s := { s with inputs := rest }) hd hl hc
    exact ⟨data, hanswer hok⟩

end Sys2Proof.Machine

/-! ## What every instruction and every step keep (10_state.md sections 4 and 5, 60_exceptions.md R208, R213) -/

namespace Sys2Proof.Machine

variable {i : Instr} {s t : State} {r : Response} {e : Err}

/-! ### The ends of an instruction and of a step -/

/-- The data of an answer is empty, a digest, or the characters of one (30_encoding.md R85). -/
def SizedResponse (r : Response) : Prop := ∀ data, r = .ok data → data.length = 0 ∨ data.length = 16 ∨ data.length = 32

theorem sizedResponse_error (e : Err) : SizedResponse (.error e) := nofun

theorem sizedResponse_serialize (acc : Quad) : SizedResponse (.ok (serialize acc)) := by
  rintro _ ⟨⟩
  exact .inr (.inl (serialize_length acc))

/-- The ends of an instruction: the three that write the DigestState, an answer alone, and a step micro-operation. -/
theorem exec_next_cases (h : exec i s = .next t) :
    t = respond (.ok []) (freshDigest s) ∨ (∃ p, t = respond (.ok []) (absorb p s)) ∨
      t = respond (.ok (serialize (finishDigest s).acc)) (finishDigest s) ∨
      (∃ r, SizedResponse r ∧ t = respond r s) ∨ ∃ k, t = runStep k s := by
  cases i with
  | init =>
    cases h
    exact .inl rfl
  | process p =>
    obtain ⟨-, rfl⟩ | ⟨-, rfl⟩ := exec_process_next h
    · exact .inr (.inl ⟨p, rfl⟩)
    · exact .inr (.inr (.inr (.inl ⟨_, sizedResponse_error _, rfl⟩)))
  | finish =>
    obtain ⟨-, rfl⟩ | ⟨-, rfl⟩ | ⟨-, rfl⟩ := exec_finish_next h
    · exact .inr (.inr (.inl rfl))
    · exact .inr (.inr (.inr (.inl ⟨_, sizedResponse_serialize _, rfl⟩)))
    · exact .inr (.inr (.inr (.inl ⟨_, sizedResponse_error _, rfl⟩)))
  | oneshot p =>
    cases h
    exact .inr (.inr (.inr (.inl ⟨_, sizedResponse_serialize _, rfl⟩)))
  | encode d =>
    by_cases hd : d.length = 16
    · cases (exec_encode_digest hd s).symm.trans h
      refine .inr (.inr (.inr (.inl ⟨_, ?_, rfl⟩)))
      rintro _ ⟨⟩
      exact .inr (.inr (by rw [encodeHex_length, hd]))
    · cases (exec_encode_refused hd s).symm.trans h
      exact .inr (.inr (.inr (.inl ⟨_, sizedResponse_error _, rfl⟩)))
  | decode p =>
    cases hd : decodeHex p with
    | some out =>
      cases (exec_decode_some hd s).symm.trans h
      refine .inr (.inr (.inr (.inl ⟨_, ?_, rfl⟩)))
      rintro _ ⟨⟩
      obtain ⟨hlen, hparse⟩ := decodeHex_eq_some.mp hd
      have := decodePairs_length hparse
      exact .inr (.inl (by omega))
    | none =>
      cases (exec_decode_none hd s).symm.trans h
      exact .inr (.inr (.inr (.inl ⟨_, sizedResponse_error _, rfl⟩)))
  | _ =>
    cases h
    exact .inr (.inr (.inr (.inr ⟨_, rfl⟩)))

/-- The ends of a step: idle, a reset event, a step micro-operation with the sequencer's part after it, an illegal packet, and a
command on the state without its packet. -/
theorem step_next_cases (h : step s = .next t) :
    t = s ∨ (∃ rest, t = resetEvent { s with inputs := rest }) ∨
      t = afterStep s.stepIndex (runStep s.stepIndex s) ∨
      (∃ rest, t = raiseErr .illegalCommand { s with inputs := rest }) ∨
      ∃ i rest, exec i { s with inputs := rest } = .next t := by
  cases hf : fetch s with
  | idle =>
    cases (step_idle hf).symm.trans h
    exact .inl rfl
  | reset rest =>
    cases (step_reset hf).symm.trans h
    exact .inr (.inl ⟨rest, rfl⟩)
  | control cw =>
    cases (step_control hf).symm.trans h
    exact .inr (.inr (.inl rfl))
  | command p rest =>
    cases hd : decodePacket p with
    | error e =>
      cases (step_illegal hf hd).symm.trans h
      exact .inr (.inr (.inr (.inl ⟨rest, rfl⟩)))
    | ok i => exact .inr (.inr (.inr (.inr ⟨i, rest, (step_command hf hd).symm.trans h⟩)))

/-- Settles O18: an end whose answer is an error is an answer alone. -/
theorem aCommandThatEndsInAnErrorWritesNothing : Obligations.ACommandThatEndsInAnErrorWritesNothing := by
  intro i s t e h hresp
  obtain rfl | ⟨p, rfl⟩ | rfl | ⟨r, -, rfl⟩ | ⟨k, rfl⟩ := exec_next_cases h
  · simp at hresp
  · simp at hresp
  · simp at hresp
  · obtain rfl : r = .error e := by simpa using hresp
    rfl
  · simp at hresp

/-- Settles O15: the two flags after each instruction. -/
theorem onlyInitAndFinishMoveThePhase : Obligations.OnlyInitAndFinishMoveThePhase := by
  intro i s t h
  cases i with
  | init =>
    cases h
    rfl
  | process p =>
    obtain ⟨-, rfl⟩ | ⟨-, rfl⟩ := exec_process_next h
    · simp
    · simp
  | finish =>
    obtain ⟨hs, rfl⟩ | ⟨hs, rfl⟩ | ⟨hs, rfl⟩ := exec_finish_next h
    · simp [hs, phaseOf_eq_final, ((phaseOf_eq_active s).mp hs).1]
    · simp [hs]
    · simp [hs]
  | _ => exact (sameDigest_of_exec_other h nofun nofun nofun).phaseOf

/-! ### Responses -/

/-- An instruction adds at most one response. -/
theorem responses_of_exec (h : exec i s = .next t) :
    t.responses = s.responses ∨ ∃ r, SizedResponse r ∧ t.responses = s.responses ++ [r] := by
  have hempty : SizedResponse (.ok []) := by
    rintro _ ⟨⟩
    exact .inl rfl
  obtain rfl | ⟨p, rfl⟩ | rfl | ⟨r, hr, rfl⟩ | ⟨k, rfl⟩ := exec_next_cases h
  · exact .inr ⟨_, hempty, rfl⟩
  · exact .inr ⟨_, hempty, by simp⟩
  · exact .inr ⟨_, sizedResponse_serialize _, congrArg (· ++ _) (finishDigest_responses s)⟩
  · exact .inr ⟨r, hr, rfl⟩
  · exact .inl rfl

theorem afterStep_responses (k : Fin 64) (s : State) : (afterStep k s).responses = s.responses := by
  unfold afterStep
  split <;> rfl

/-- A step adds at most one response: that of the command or the illegal packet it takes. -/
theorem responses_of_step (h : step s = .next t) :
    t.responses = s.responses ∨ ∃ r, SizedResponse r ∧ t.responses = s.responses ++ [r] := by
  obtain rfl | ⟨rest, rfl⟩ | rfl | ⟨rest, rfl⟩ | ⟨i, rest, hi⟩ := step_next_cases h
  · exact .inl rfl
  · exact .inl rfl
  · exact .inl (afterStep_responses _ _)
  · exact .inr ⟨_, sizedResponse_error _, rfl⟩
  · exact responses_of_exec (s := { s with inputs := rest }) hi

/-- Settles O20. -/
theorem eachStepAnswersAtMostOneWellFormedResponse : Obligations.EachStepAnswersAtMostOneWellFormedResponse := by
  intro s t h
  refine (responses_of_step h).imp_right fun ⟨r, hr, hresp⟩ => ⟨r, hresp, ?_⟩
  cases r with
  | ok data => exact .inr (.inr (.inr ⟨data, rfl, hr data rfl⟩))
  | error e =>
    cases e with
    | invalidState => exact .inl rfl
    | malformedInput => exact .inr (.inl rfl)
    | illegalCommand => exact .inr (.inr (.inl rfl))

/-! ### The invariant -/

theorem State.Inv.reset : State.reset.Inv where
  pendingLt := by decide
  blkLength := rfl
  lengthsAgree := nofun

/-- Settles O13. -/
theorem resetLeavesAnEmptyEngine : Obligations.ResetLeavesAnEmptyEngine :=
  ⟨rfl, rfl, rfl, rfl, rfl, rfl, .reset⟩

theorem State.Inv.respond (r : Response) (h : s.Inv) : (respond r s).Inv := { h with }

theorem State.Inv.takeInput (rest : List Input) (h : s.Inv) : { s with inputs := rest }.Inv := { h with }

theorem State.Inv.resetEvent (s : State) : (resetEvent s).Inv := { State.Inv.reset with }

theorem State.Inv.runStep (k : Fin 64) (h : s.Inv) : (runStep k s).Inv := { h with }

theorem State.Inv.afterStep (k : Fin 64) (h : s.Inv) : (afterStep k s).Inv := by
  unfold Machine.afterStep
  split
  · exact { h with }
  · exact h

theorem State.Inv.freshDigest (h : s.Inv) : (freshDigest s).Inv :=
  { h with
    pendingLt := Nat.zero_lt_succ _
    lengthsAgree := fun _ => rfl }

/-- The count modulo 64 survives the wrap modulo 2^64 (10_state.md R29, decision D11). -/
theorem State.Inv.absorb (p : ByteString) (h : s.Inv) : (absorb p s).Inv where
  pendingLt := by
    rw [absorb_pending_length]
    exact Nat.mod_lt _ (by decide)
  blkLength := absorb_blk_length p s h.blkLength
  lengthsAgree hv := by
    have hs := h.lengthsAgree (by simpa using hv)
    rw [absorb_pending_length, absorb_totalLength, add64, BitVec.toNat_add, BitVec.toNat_ofNat]
    omega

theorem State.Inv.finishDigest (h : s.Inv) : (finishDigest s).Inv where
  pendingLt := by simpa using h.pendingLt
  blkLength := finishDigest_blk_length s h.pendingLt
  lengthsAgree hv := by simpa using h.lengthsAgree (by simpa using hv)

theorem State.Inv.exec (h : s.Inv) (ht : exec i s = .next t) : t.Inv := by
  obtain rfl | ⟨p, rfl⟩ | rfl | ⟨r, -, rfl⟩ | ⟨k, rfl⟩ := exec_next_cases ht
  · exact h.freshDigest.respond _
  · exact (h.absorb p).respond _
  · exact h.finishDigest.respond _
  · exact h.respond r
  · exact h.runStep k

/-- Settles O14: the invariant is kept by whatever the step fetches. -/
theorem everyStepKeepsTheInvariant : Obligations.EveryStepKeepsTheInvariant := by
  intro s t h ht
  obtain rfl | ⟨rest, rfl⟩ | rfl | ⟨rest, rfl⟩ | ⟨i, rest, hi⟩ := step_next_cases ht
  · exact h
  · exact .resetEvent _
  · exact (h.runStep _).afterStep _
  · exact (h.takeInput rest).respond _
  · exact (h.takeInput rest).exec hi

end Sys2Proof.Machine

/-! ## The byte-serial form of PROCESS, a second FINISH, and ONESHOT in closed form (40_digest_engine.md sections 2 to 4) -/

namespace Sys2Proof.Machine

variable {s t : State} {p : ByteString}

/-! ### The byte-serial form -/

theorem absorbByte_of_full (x : Byte) (h : s.pending.length = 63) :
    absorbByte x s =
      { compressBlock (s.pending ++ [x]) s with pending := [], totalLength := add64 s.totalLength 1 } := if_pos h

theorem absorbByte_of_not_full (x : Byte) (h : s.pending.length ≠ 63) :
    absorbByte x s = { s with pending := s.pending ++ [x], totalLength := add64 s.totalLength 1 } := if_neg h

/-- One byte of the byte-serial form is PROCESS of that byte. -/
theorem absorbByte_sameDigest (x : Byte) (h : s.pending.length < 64) :
    SameDigest (absorbByte x s) (absorb [x] s) := by
  by_cases hfull : s.pending.length = 63
  · have hlen : (s.pending ++ [x]).length = 64 := by simp [hfull]
    have hslice : slice (s.pending ++ [x]) 0 64 = s.pending ++ [x] := List.take_of_length_le hlen.le
    rw [absorbByte_of_full x hfull]
    refine ⟨?_, ?_, absorb_totalLength _ _, ?_, ?_⟩
    · simp [absorb_acc, hlen, chain_succ, hslice]
    · simp [absorb_pending, hlen, List.drop_of_length_le hlen.le]
    · simp
    · simp
  · rw [absorbByte_of_not_full x hfull, absorb_of_short (by simp; omega)]
    exact SameDigest.refl _

/-- The bytes one at a time are the whole chunk, since PROCESS of two strings in a row is PROCESS of their concatenation. -/
theorem foldl_absorbByte_sameDigest (p : ByteString) (h : s.pending.length < 64) :
    SameDigest (p.foldl (fun u x => absorbByte x u) s) (absorb p s) := by
  induction p generalizing s with
  | nil => exact (absorb_nil_sameDigest h).symm
  | cons x p ih =>
    have hbyte := absorbByte_sameDigest x h
    have hlen : (absorbByte x s).pending.length < 64 := by
      obtain ⟨-, hpending, -⟩ := hbyte
      rw [← hpending, absorb_pending_length]
      exact Nat.mod_lt _ (by decide)
    exact ((ih hlen).trans (hbyte.absorb p)).trans (absorb_absorb_sameDigest [x] p s)

/-- Settles O25. -/
theorem byteSerialProcessEqualsBlockwiseProcess : Obligations.ByteSerialProcessEqualsBlockwiseProcess :=
  fun _ p hs hp => ⟨_, exec_process_active hs,
    (sameDigest_respond_right _ _ _).mpr (foldl_absorbByte_sameDigest p hp)⟩

/-! ### FINISH after FINISH -/

theorem phaseOf_finishDigest (h : phaseOf s = .active) : phaseOf (finishDigest s) = .final := by
  obtain ⟨hv, -⟩ := (phaseOf_eq_active s).mp h
  exact (phaseOf_eq_final _).mpr ⟨by simpa using hv, finishDigest_finalized s⟩

/-- Settles O28: FINISH leaves phase FINAL, where it only reads the accumulators. -/
theorem finishAgainAnswersTheSameDigest : Obligations.FinishAgainAnswersTheSameDigest := by
  refine ⟨fun s hs => exec_finish_final hs, fun s t hs ht => ?_⟩
  cases (exec_finish_active hs).symm.trans ht
  refine ⟨serialize (finishDigest s).acc, congrArg (· ++ _) (finishDigest_responses s), ?_⟩
  rw [exec_finish_final (by rw [phaseOf_respond, phaseOf_finishDigest hs]), respond_acc]
  rfl

/-! ### The length field -/

/-- Eight times the count is the count moved up by three bits (R118). -/
theorem bitLength_eq_shiftLeft (n : Dword) : bitLength n = n <<< 3 := by
  apply BitVec.eq_of_toNat_eq
  rw [bitLength, BitVec.toNat_mul, BitVec.toNat_shiftLeft, Nat.shiftLeft_eq, Nat.mul_comm]
  rfl

/-- Settles O31. -/
theorem bitLengthIsEightTimesTheByteCount : Obligations.BitLengthIsEightTimesTheByteCount := by
  refine fun n => ⟨BitVec.toNat_mul .., ?_, ?_⟩
  · ext j hj
    have hlow : j < 64 := by omega
    have hhigh : 3 + j < 64 := by omega
    simp [bitLength_eq_shiftLeft, hlow, hhigh]
  · ext j hj
    have hlow : j < 64 := by omega
    simp [bitLength_eq_shiftLeft, hj, hlow]

theorem bitLength_ofNat (l : Nat) : bitLength (BitVec.ofNat 64 l) = BitVec.ofNat 64 (8 * l) :=
  (BitVec.ofNat_mul ..).symm

/-! ### ONESHOT -/

/-- The padded message (R124): the message, `0x80`, the zeros, and the bit length. -/
def paddedMessage (p : ByteString) : ByteString :=
  p ++ [0x80#8] ++ zeros (padZeros (p.length % 64)) ++ bytesLE64 (BitVec.ofNat 64 (8 * p.length))

/-- The number of blocks of the padded message (R124). -/
def paddedBlocks (p : ByteString) : Nat := p.length / 64 + if p.length % 64 ≤ 55 then 1 else 2

theorem paddedMessage_length (p : ByteString) : (paddedMessage p).length = 64 * paddedBlocks p := by
  simp only [paddedMessage, paddedBlocks, padZeros, zeros, List.length_append, List.length_singleton,
    List.length_replicate, bytesLE64_length]
  split <;> split <;> omega

/-- The bytes after the last complete block. -/
theorem length_drop_blocks (p : ByteString) : (p.drop (64 * (p.length / 64))).length = p.length % 64 := by
  rw [List.length_drop]
  omega

/-- The padded message is its complete blocks followed by the tail that FINISH forms of the rest. -/
theorem paddedMessage_eq (p : ByteString) :
    paddedMessage p =
      p.take (64 * (p.length / 64)) ++ padTail (p.drop (64 * (p.length / 64))) (BitVec.ofNat 64 p.length) := by
  rw [padTail, length_drop_blocks, bitLength_ofNat, paddedMessage]
  simp only [← List.append_assoc, List.take_append_drop]

/-- The chain over the padded message goes over the complete blocks of the message and on over the tail. -/
theorem chain_paddedMessage (p : ByteString) (h : Quad) :
    chain (paddedBlocks p) (paddedMessage p) h =
      chain (if p.length % 64 ≤ 55 then 1 else 2) (padTail (p.drop (64 * (p.length / 64))) (BitVec.ofNat 64 p.length))
        (chain (p.length / 64) p h) := by
  have htake : (p.take (64 * (p.length / 64))).length = 64 * (p.length / 64) := by
    rw [List.length_take]
    omega
  have hblocks : chain (p.length / 64) p h = chain (p.length / 64) (p.take (64 * (p.length / 64))) h := by
    rw [← chain_append _ _ (p.drop (64 * (p.length / 64))) _ htake.ge, List.take_append_drop]
  rw [paddedBlocks, chain_add, paddedMessage_eq, List.drop_left' htake, chain_append _ _ _ _ htake.ge, hblocks]

/-- ONESHOT's digest is the chain over the padded message: PROCESS compresses the complete blocks of the message, FINISH those of
the tail. -/
theorem md5_eq_chain (p : ByteString) : md5 p = serialize (chain (paddedBlocks p) (paddedMessage p) initQuad) := by
  have hpending : (absorb p (freshDigest State.reset)).pending = p.drop (64 * (p.length / 64)) := absorb_pending p _
  have htotal : (absorb p (freshDigest State.reset)).totalLength = BitVec.ofNat 64 p.length :=
    (absorb_totalLength p _).trans (BitVec.zero_add _)
  have hacc : (absorb p (freshDigest State.reset)).acc = chain (p.length / 64) p initQuad := absorb_acc p _
  have hlt : (p.drop (64 * (p.length / 64))).length < 64 := length_drop_blocks p ▸ Nat.mod_lt _ (by decide)
  have hcount : (padTail (p.drop (64 * (p.length / 64))) (BitVec.ofNat 64 p.length)).length / 64 =
      if p.length % 64 ≤ 55 then 1 else 2 := by
    rw [padTail_length _ _ hlt, length_drop_blocks]
    split <;> split <;> omega
  rw [md5, finishDigest_acc_eq_chain (hpending ▸ hlt), hpending, htotal, hacc, hcount, chain_paddedMessage]

/-- Settles O33. -/
theorem oneshotAnswersTheDigestOfThePaddedMessage : Obligations.OneshotAnswersTheDigestOfThePaddedMessage := by
  refine fun p s => ⟨paddedBlocks p, paddedMessage p, rfl, rfl, paddedMessage_length p, ?_⟩
  rw [exec_oneshot, md5_eq_chain]
  rfl

end Sys2Proof.Machine

/-! ## The datapath of one step (41_block_compression.md sections 2, 3 and 5) -/

namespace Sys2Proof.Machine

/-! ### The nonlinear functions -/

/-- Settles O40. -/
theorem stageFunctionsHaveTheirTruthTables : Obligations.StageFunctionsHaveTheirTruthTables := by
  intro b c d j hj
  refine ⟨?_, ?_, ?_, ?_⟩
  · rw [funF, not32, BitVec.getLsbD_or, BitVec.getLsbD_and, BitVec.getLsbD_and, BitVec.getLsbD_not]
    cases b.getLsbD j <;> simp [hj]
  · rw [funG, not32, BitVec.getLsbD_or, BitVec.getLsbD_and, BitVec.getLsbD_and, BitVec.getLsbD_not]
    cases d.getLsbD j <;> simp [hj]
  · simp [funH]
  · simp [funI, not32, hj]

/-! ### The rows of the step control table -/

/-- `row` (step index, step, `g`, `s`, `K`) is the row of the step control table at its index, in the stage of `fsel`. -/
abbrev IsRomRow (fsel : BitVec 2) (row : Nat × Instr × Nat × Nat × Word) : Prop :=
  stepInstr (Fin.ofNat 64 row.1) = row.2.1 ∧ cwFsel (romWord (Fin.ofNat 64 row.1)) = fsel ∧
    (cwG (romWord (Fin.ofNat 64 row.1))).toNat = row.2.2.1 ∧ (cwS (romWord (Fin.ofNat 64 row.1))).toNat = row.2.2.2.1 ∧
    cwK (romWord (Fin.ofNat 64 row.1)) = row.2.2.2.2

/-- A step computes what the fields of its control word say (R143, R144). -/
theorem stepQuad_eq_rowStep (k : Fin 64) (w : Quad) (m : List Word) :
    stepQuad k w m =
      rowStep (nonlinear (cwFsel (romWord k))) (cwG (romWord k)).toNat (cwS (romWord k)).toNat (cwK (romWord k)) w m := rfl

/-- The step of a row computes that row's function of the working values and moves the step index on. -/
theorem exec_of_isRomRow {fsel : BitVec 2} {rows : List (Nat × Instr × Nat × Nat × Word)}
    (h : ∀ row ∈ rows, IsRomRow fsel row) (s : State) :
    ∀ row ∈ rows, ∃ j : Fin 64, (row.1 < 63 → j.val = row.1 + 1) ∧
      exec row.2.1 s = .next
        { s with
          w := rowStep (nonlinear fsel) row.2.2.1 row.2.2.2.1 row.2.2.2.2 s.w (messageWords s.blk)
          stepIndex := j } := by
  intro row hrow
  obtain ⟨hstep, hfsel, hg, hs, hk⟩ := h row hrow
  refine ⟨nextIndex (Fin.ofNat 64 row.1), fun hlt => ?_, ?_⟩
  · rw [nextIndex_ofNat hlt]
    exact Nat.mod_eq_of_lt (Nat.succ_lt_succ hlt)
  · rw [← hstep, ← hfsel, ← hg, ← hs, ← hk, ← stepQuad_eq_rowStep]
    exact exec_stepInstr _ s

/-- Settles O36. -/
theorem stage1StepsComputeTheirTableRows : Obligations.Stage1StepsComputeTheirTableRows :=
  exec_of_isRomRow (fsel := 0) (by decide +kernel)

/-- Settles O37. -/
theorem stage2StepsComputeTheirTableRows : Obligations.Stage2StepsComputeTheirTableRows :=
  exec_of_isRomRow (fsel := 1) (by decide +kernel)

/-- Settles O38. -/
theorem stage3StepsComputeTheirTableRows : Obligations.Stage3StepsComputeTheirTableRows :=
  exec_of_isRomRow (fsel := 2) (by decide +kernel)

/-- Settles O39. -/
theorem stage4StepsComputeTheirTableRows : Obligations.Stage4StepsComputeTheirTableRows :=
  exec_of_isRomRow (fsel := 3) (by decide +kernel)

/-! ### The role-fixed form -/

/-- The working values held by the registers of the role-fixed form after `n` steps: the roles have moved on by `n` places
(R158). -/
def workingValues (n : Nat) (r : Quad) : Quad :=
  match n % 4 with
  | 0 => r
  | 1 => ⟨r.d, r.a, r.b, r.c⟩
  | 2 => ⟨r.c, r.d, r.a, r.b⟩
  | _ => ⟨r.b, r.c, r.d, r.a⟩

/-- A step of the role-fixed form is the step on the working values, case by case of the register it updates. -/
theorem workingValues_stepFixed (i : Fin 64) (r : Quad) (m : List Word) :
    workingValues (i.val + 1) (stepFixed i r m) = stepQuad i (workingValues i.val r) m := by
  obtain h | h | h | h : i.val % 4 = 0 ∨ i.val % 4 = 1 ∨ i.val % 4 = 2 ∨ i.val % 4 = 3 := by omega
  all_goals simp [workingValues, stepFixed, stepQuad, Nat.add_mod, h]

theorem workingValues_stepsFixed {n : Nat} (hn : n ≤ 64) (r : Quad) (m : List Word) :
    workingValues n (stepsFixed n r m) = stepsQuad n r m := by
  induction n with
  | zero => rfl
  | succ n ih =>
    have hval : (Fin.ofNat 64 n).val = n := Nat.mod_eq_of_lt hn
    have hstep := workingValues_stepFixed (Fin.ofNat 64 n) (stepsFixed n r m) m
    rw [hval, ih (by omega)] at hstep
    exact hstep

/-- Settles O43: after 64 steps the roles are back in their places. -/
theorem roleFixedFormComputesTheSame : Obligations.RoleFixedFormComputesTheSame :=
  fun r m => workingValues_stepsFixed le_rfl r m

end Sys2Proof.Machine

/-! ## The two directions of the Signature Codec (42_signature_codec.md section 2) -/

namespace Sys2Proof.Machine

variable {d p : ByteString} {c : Byte} {n : BitVec 4}

theorem hexval_hexchar (n : BitVec 4) : hexval (hexchar n) = some n := by
  revert n
  decide

/-- Settles O46: which codes have a value is `hexval_isSome`, the values are the table's. -/
theorem hexvalInvertsHexcharInBothCases : Obligations.HexvalInvertsHexcharInBothCases :=
  ⟨hexval_isSome, by decide, by decide, hexval_hexchar⟩

/-- The character of a code's value is the code in lowercase. -/
theorem hexchar_of_hexval (h : hexval c = some n) : hexchar n = lowerChar c := by
  have hall : ∀ c : Byte, (hexval c).all (hexchar · == lowerChar c) := by decide +kernel
  simpa [h] using hall c

theorem append_nibbles (x : Byte) : x.extractLsb' 4 4 ++ x.extractLsb' 0 4 = x := by
  revert x
  decide +kernel

theorem nibbles_append (h l : BitVec 4) : (h ++ l).extractLsb' 4 4 = h ∧ (h ++ l).extractLsb' 0 4 = l := by
  revert h l
  decide

theorem decodePairs_encodeHex (d : ByteString) : decodePairs (encodeHex d) = some d := by
  induction d with
  | nil => rfl
  | cons x d ih =>
    exact decodePairs_cons_cons_eq_some.mpr
      ⟨_, _, d, hexval_hexchar _, hexval_hexchar _, ih, congrArg (· :: d) (append_nibbles x)⟩

theorem encodeHex_of_decodePairs (h : decodePairs p = some d) : encodeHex d = p.map lowerChar := by
  induction p using List.twoStepInduction generalizing d with
  | nil =>
    cases h
    rfl
  | singleton c => cases h
  | cons_cons hi lo rest ih _ =>
    obtain ⟨a, b, tail, ha, hb, htail, rfl⟩ := decodePairs_cons_cons_eq_some.mp h
    obtain ⟨hhigh, hlow⟩ := nibbles_append a b
    rw [encodeHex, hhigh, hlow, hexchar_of_hexval ha, hexchar_of_hexval hb, ih htail]
    rfl

/-- Settles O48. -/
theorem codecRoundTripsBothWays : Obligations.CodecRoundTripsBothWays := by
  refine ⟨fun d s s' hd => ?_, fun p s s' hp => ?_⟩
  · have hlen : (encodeHex d).length = 32 := by rw [encodeHex_length, hd]
    exact ⟨_, exec_encode_digest hd s, exec_decode_some (decodeHex_eq_some.mpr ⟨hlen, decodePairs_encodeHex d⟩) s'⟩
  · obtain ⟨d, hd⟩ := Option.isSome_iff_exists.mp ((decodeHex_isSome p).mpr hp)
    obtain ⟨hlen, hparse⟩ := decodeHex_eq_some.mp hd
    have hlen16 : d.length = 16 := by
      have := decodePairs_length hparse
      omega
    refine ⟨d, exec_decode_some hd s, ?_⟩
    rw [exec_encode_digest hlen16, encodeHex_of_decodePairs hparse]
    rfl

end Sys2Proof.Machine
